-- ==== Sys2Proof/Word.lean ====
section
/-! DEFINITION. The word and byte types of FANCTL (spec/00_scope.md R5: bit 0 is the least significant bit). -/

namespace Sys2Proof

/-- A register, a command word, a bus word: 32 bits (spec/10_state.md R20, spec/30_encoding.md R70). -/
abbrev Word := BitVec 32

/-- One byte lane of the host bus (spec/20_memory.md R53). -/
abbrev Byte := BitVec 8

end Sys2Proof
end

