-- ==== Sys2Proof/Config.lean ====
section
/-! DEFINITION. What the platform fixes and the spec leaves OPEN (spec/00_scope.md R4, spec/93_implementation_defined.md).
`BASE` (U14) is here, with no body. `PORT_LATENCY` (U5) is no number of the model: a port action stays in flight until the
environment's response stands next in `State.inputs`, however late. The pin mapping (U17) is the platform's: a pin number is
passed to the GPIO port unchanged. -/

namespace Sys2Proof.Config

/-- Which multiple of 32 the window's base address is (spec/20_memory.md R51, U14): OPEN, so nothing constrains it. -/
opaque baseIndex : Nat

/-- `BASE`, "a multiple of 32" (spec/20_memory.md R51). -/
def base : Nat := 32 * baseIndex

end Sys2Proof.Config
end

