-- ==== Sys2Proof/Syntax.lean ====
section
/-! DEFINITION. The commands: one constructor per row of spec/opcode_table.json. Every command has the one format CMD
(spec/30_encoding.md R70), so every constructor carries the three fields PIN, FREQ and ARG as the host wrote them. A field
the operation ignores (R75) is carried too: it decides nothing, but the read-back of CMD shows it (R80). -/

namespace Sys2Proof

/-- A command word, by its operation (spec/30_encoding.md R78). -/
inductive Instr where
  /-- OP 0x1, Fixed Duty Cycle (R150). -/
  | fixed (pin freq : BitVec 6) (arg : BitVec 16)
  /-- OP 0x2, Hysteresis Threshold (R160). -/
  | hyst (pin freq : BitVec 6) (arg : BitVec 16)
  /-- OP 0x3, PWM Thermostat (R170). -/
  | thermo (pin freq : BitVec 6) (arg : BitVec 16)
  /-- OP 0x4, report-pin-state (R190). -/
  | rpin (pin freq : BitVec 6) (arg : BitVec 16)
  /-- OP 0x5, report-temperature (R191). -/
  | rtemp (pin freq : BitVec 6) (arg : BitVec 16)
  /-- OP 0x6, one PWM period (R142). -/
  | pulse (pin freq : BitVec 6) (arg : BitVec 16)
  /-- OP 0x7, cancellation (R126, R127). -/
  | stop (pin freq : BitVec 6) (arg : BitVec 16)
  /-- OP 0x0, "zero modes": a usage error (R79). -/
  | reserved0 (pin freq : BitVec 6) (arg : BitVec 16)
  /-- OP 0x8, reserved (R79). -/
  | reserved8 (pin freq : BitVec 6) (arg : BitVec 16)
  /-- OP 0x9, reserved (R79). -/
  | reserved9 (pin freq : BitVec 6) (arg : BitVec 16)
  /-- OP 0xA, reserved (R79). -/
  | reservedA (pin freq : BitVec 6) (arg : BitVec 16)
  /-- OP 0xB, reserved (R79). -/
  | reservedB (pin freq : BitVec 6) (arg : BitVec 16)
  /-- OP 0xC, reserved (R79). -/
  | reservedC (pin freq : BitVec 6) (arg : BitVec 16)
  /-- OP 0xD, reserved (R79). -/
  | reservedD (pin freq : BitVec 6) (arg : BitVec 16)
  /-- OP 0xE, reserved (R79). -/
  | reservedE (pin freq : BitVec 6) (arg : BitVec 16)
  /-- OP 0xF, reserved (R79). -/
  | reservedF (pin freq : BitVec 6) (arg : BitVec 16)
deriving DecidableEq, Repr

end Sys2Proof
end

