-- ==== Sys2Proof/WellFormed.lean ====
section
/-! DEFINITION. Which commands are well formed: the used fields lie in their legal ranges and OP names an operation
(spec/30_encoding.md R72 to R75, R79; the ranges the assembler of R83 enforces). An ill-formed command still decodes and
still runs: FANCTL accepts it and enters FAULT (spec/41_lifecycle.md R124). -/

namespace Sys2Proof

/-- Why a command is not well formed. -/
inductive IllFormed where
  /-- PIN is 54 to 63 in an operation that uses PIN (R72). -/
  | pinRange
  /-- FREQ is 51 to 63 in an operation that uses FREQ (R73). -/
  | freqRange
  /-- ARG is over 100 in an operation that reads it as a duty (R74). -/
  | dutyRange
  /-- OP is 0x0 or 0x8 to 0xF (R79). -/
  | noOperation
deriving DecidableEq, Repr

/-- The first field found out of range, if any (R75 says which fields each operation uses). -/
def Instr.illFormed : Instr → Option IllFormed
  | .fixed pin freq arg =>
    if 53 < pin.toNat then some .pinRange else if 50 < freq.toNat then some .freqRange
    else if 100 < arg.toNat then some .dutyRange else none
  | .hyst pin _ _ => if 53 < pin.toNat then some .pinRange else none
  | .thermo pin freq _ =>
    if 53 < pin.toNat then some .pinRange else if 50 < freq.toNat then some .freqRange else none
  | .rpin pin _ _ => if 53 < pin.toNat then some .pinRange else none
  | .rtemp _ _ _ => none
  | .pulse pin freq arg =>
    if 53 < pin.toNat then some .pinRange else if 50 < freq.toNat then some .freqRange
    else if 100 < arg.toNat then some .dutyRange else none
  | .stop _ _ _ => none
  | .reserved0 _ _ _ => some .noOperation
  | .reserved8 _ _ _ => some .noOperation
  | .reserved9 _ _ _ => some .noOperation
  | .reservedA _ _ _ => some .noOperation
  | .reservedB _ _ _ => some .noOperation
  | .reservedC _ _ _ => some .noOperation
  | .reservedD _ _ _ => some .noOperation
  | .reservedE _ _ _ => some .noOperation
  | .reservedF _ _ _ => some .noOperation

/-- The command is well formed. -/
def Instr.wellFormed (i : Instr) : Bool := i.illFormed.isNone

end Sys2Proof
end

