-- ==== Sys2Proof/Decode.lean ====
section
/-! DEFINITION. The decoder, from spec/30_encoding.md R70 and R78, and after it the encoder, from the same two rules.
Every 32-bit word is some command (R78, R79), so only a byte string of fewer than four bytes is rejected. -/

namespace Sys2Proof

/-! ### Fields of a command word (R70) -/

/-- OP, bits 3:0 (R71). -/
def fieldOp (w : Word) : BitVec 4 := w.extractLsb' 0 4
/-- PIN, bits 9:4 (R72). -/
def fieldPin (w : Word) : BitVec 6 := w.extractLsb' 4 6
/-- FREQ, bits 15:10 (R73). -/
def fieldFreq (w : Word) : BitVec 6 := w.extractLsb' 10 6
/-- ARG, bits 31:16 (R74). -/
def fieldArg (w : Word) : BitVec 16 := w.extractLsb' 16 16

/-- `w = {ARG, FREQ, PIN, OP}` (R70). -/
def packCmd (op : BitVec 4) (pin freq : BitVec 6) (arg : BitVec 16) : Word := arg ++ freq ++ pin ++ op

/-! ### Decoding -/

/-- The command of a 32-bit word: OP alone selects the operation (R78, R82). The match reads OP as bit 3 and bits 2:0. -/
def decodeWord (w : Word) : Instr :=
  let pin := fieldPin w
  let freq := fieldFreq w
  let arg := fieldArg w
  match (fieldOp w).getLsbD 3, (((fieldOp w).extractLsb' 0 3).toFin : Fin 8) with
  | false, 0 => .reserved0 pin freq arg
  | false, 1 => .fixed pin freq arg
  | false, 2 => .hyst pin freq arg
  | false, 3 => .thermo pin freq arg
  | false, 4 => .rpin pin freq arg
  | false, 5 => .rtemp pin freq arg
  | false, 6 => .pulse pin freq arg
  | false, 7 => .stop pin freq arg
  | true, 0 => .reserved8 pin freq arg
  | true, 1 => .reserved9 pin freq arg
  | true, 2 => .reservedA pin freq arg
  | true, 3 => .reservedB pin freq arg
  | true, 4 => .reservedC pin freq arg
  | true, 5 => .reservedD pin freq arg
  | true, 6 => .reservedE pin freq arg
  | true, 7 => .reservedF pin freq arg

/-- Why a byte string is no command. -/
inductive DecodeError where
  /-- Fewer than the four bytes every command has (R82). -/
  | truncated (got : Nat)
deriving DecidableEq, Repr

/-- Byte lane `k` carries bits `8k+7 : 8k` (spec/20_memory.md R53). -/
def lane (k : Nat) (w : Word) : Byte := w.extractLsb' (8 * k) 8

/-- The four byte lanes of a word, lane 0 first: the word as the little-endian bus lays it out (R53). -/
def lanes (w : Word) : List Byte := [lane 0 w, lane 1 w, lane 2 w, lane 3 w]

/-- The word of four byte lanes (R53). -/
def ofLanes (b0 b1 b2 b3 : Byte) : Word := b3 ++ b2 ++ b1 ++ b0

/-- Decode one command from bytes, and the bytes that follow it: always exactly one word (R82). -/
def decode : List Byte → Except DecodeError (Instr × List Byte)
  | b0 :: b1 :: b2 :: b3 :: rest => .ok (decodeWord (ofLanes b0 b1 b2 b3), rest)
  | short => .error (.truncated short.length)

/-! ### Encoding -/

/-- The word of a command (R70, R78). -/
def encode : Instr → Word
  | .reserved0 pin freq arg => packCmd 0x0 pin freq arg
  | .fixed pin freq arg => packCmd 0x1 pin freq arg
  | .hyst pin freq arg => packCmd 0x2 pin freq arg
  | .thermo pin freq arg => packCmd 0x3 pin freq arg
  | .rpin pin freq arg => packCmd 0x4 pin freq arg
  | .rtemp pin freq arg => packCmd 0x5 pin freq arg
  | .pulse pin freq arg => packCmd 0x6 pin freq arg
  | .stop pin freq arg => packCmd 0x7 pin freq arg
  | .reserved8 pin freq arg => packCmd 0x8 pin freq arg
  | .reserved9 pin freq arg => packCmd 0x9 pin freq arg
  | .reservedA pin freq arg => packCmd 0xA pin freq arg
  | .reservedB pin freq arg => packCmd 0xB pin freq arg
  | .reservedC pin freq arg => packCmd 0xC pin freq arg
  | .reservedD pin freq arg => packCmd 0xD pin freq arg
  | .reservedE pin freq arg => packCmd 0xE pin freq arg
  | .reservedF pin freq arg => packCmd 0xF pin freq arg

/-- The four bytes of a command. -/
def encodeBytes (i : Instr) : List Byte := lanes (encode i)

/-- The opcode table's name of a command (R78, R79). -/
def Instr.mnemonic : Instr → String
  | .fixed _ _ _ => "FIXED"
  | .hyst _ _ _ => "HYST"
  | .thermo _ _ _ => "THERMO"
  | .rpin _ _ _ => "RPIN"
  | .rtemp _ _ _ => "RTEMP"
  | .pulse _ _ _ => "PULSE"
  | .stop _ _ _ => "STOP"
  | .reserved0 _ _ _ => "RESERVED"
  | .reserved8 _ _ _ => "RESERVED"
  | .reserved9 _ _ _ => "RESERVED"
  | .reservedA _ _ _ => "RESERVED"
  | .reservedB _ _ _ => "RESERVED"
  | .reservedC _ _ _ => "RESERVED"
  | .reservedD _ _ _ => "RESERVED"
  | .reservedE _ _ _ => "RESERVED"
  | .reservedF _ _ _ => "RESERVED"

/-- The word an opcode-table row of `nbits` bits stands for, the bits above them 0. -/
def tableWord (nbits w : Nat) : Word := BitVec.ofNat 32 (w % 2 ^ nbits)

/-- What the decoder reads from an opcode-table word, laid out in the bus's byte order. -/
def decodeTableWord (nbits w : Nat) : Option Instr :=
  match decode (lanes (tableWord nbits w)) with
  | .ok (i, []) => some i
  | _ => none

end Sys2Proof
end

