-- ==== Sys2Proof/Machine/State.lean ====
section
/-! DEFINITION. The state of FANCTL: every piece of state of spec/10_state.md, and beside it the model's own fields for what
its environment does and what is observed (spec/00_scope.md R8, R9). INVENTORY.md lists each field with its rule. -/

namespace Sys2Proof.Machine

/-- STATUS.STATE (R23). The values 5, 6 and 7 are "never produced" and have no constructor. -/
inductive BlockState where
  | idle | busy | done | stopped | fault
deriving DecidableEq, Repr

/-- STATUS.FCODE (R28, R200): no fault, or one of the five fatal conditions. Codes 6 to 15 have no constructor. -/
inductive FaultCode where
  | none | sensor | openFail | cfgFail | io | usage
deriving DecidableEq, Repr

/-- SEQ, the sequencer label: FANCTL's program counter (R37). -/
inductive Label where
  | idle
  | pOpen | pCfg
  | puSetH | puWaitH | puSetL | puWaitL
  | fxSet
  | hyBind | hyTread | hyGet | hySet | hyWait
  | thGet | thSet | thWait | thBind | thTread
  | rpGet
  | rtBind | rtTread
deriving DecidableEq, Repr

/-- A port action with its arguments (spec/00_scope.md R7). -/
inductive Action where
  | openCtl
  | cfgPin (pin : BitVec 6)
  | setPin (pin : BitVec 6) (v : Bool)
  | getPin (pin : BitVec 6)
  | closeCtl
  | bindSensor
  | readTemp
  | wait (n : Nat)
deriving DecidableEq, Repr

/-- How a port action ended (spec/00_scope.md R9). `abandoned`: reset came before the response (R240). -/
inductive Response where
  | ok
  | fail
  | level (g : Bool)
  | reading (t : Word)
  | completed
  | aborted
  | abandoned
deriving DecidableEq, Repr

/-- One entry of the observation: a port action and its response (spec/00_scope.md R9). -/
structure PortEvent where
  action : Action
  response : Response
deriving DecidableEq, Repr

/-- The outcome of a control decision, as a DECIDE record shows it (spec/60_exceptions.md R232). -/
inductive Decision where
  | skip | noChange | on | off | sleepEnter | wake | inc | dec | hold
deriving DecidableEq, Repr

/-- A trace record (spec/60_exceptions.md R231, R232). -/
inductive TraceRec where
  | setLog (pin : BitVec 6) (value : Bool)
  | decision (op : BitVec 4) (t : Word) (outcome : Decision) (perc : BitVec 7) (sleep : Bool)
deriving DecidableEq, Repr

/-- A host access to the register window, at a byte offset, of a size in bytes (spec/20_memory.md R50, R52). A write's value
matters only for the one accepted size. -/
inductive HostAccess where
  | read (off : BitVec 5) (size : Nat)
  | write (off : BitVec 5) (size : Nat) (value : Word)
deriving DecidableEq, Repr

/-- What the last host access got back (spec/20_memory.md R52, R54). -/
inductive BusResponse where
  | none
  | data (w : Word)
  | written
  | error
deriving DecidableEq, Repr

/-- How a terminating step ends the command (spec/41_lifecycle.md R120). -/
inductive EndKind where
  /-- Normal completion (R128). -/
  | done
  /-- The STOP step (R127). -/
  | stopped
  /-- Fault entry with a code (R210). -/
  | fault (code : FaultCode)
deriving DecidableEq, Repr

/-- What a terminating step still has to write once its `Close()` is answered (log entry 11): how the command ends, and the
values of LINE and LVALID the step computed. -/
structure Ending where
  kind : EndKind
  line : Bool
  lvalid : Bool
deriving DecidableEq, Repr

/-- One move of one agent (spec/00_scope.md R8). DESIGN CHOICE, log entry 2. An answer names the epoch its action was issued in,
the number of resets before it, so that an answer of an action that reset has abandoned is told apart (R240, U18; log entry 9). -/
inductive Input where
  /-- The sequencer moves: it issues the next port action, or takes the STOP step. -/
  | sequencer
  /-- The GPIO controller answers its action of that epoch. `level` is its draw for a `Get` (R105). -/
  | gpio (epoch : Nat) (ok level : Bool)
  /-- The sensor answers its action of that epoch. `t` is its reading for a `TRead` (R101). -/
  | sensor (epoch : Nat) (ok : Bool) (t : Word)
  /-- The timebase ticks: one microsecond passes (R107). -/
  | tick
  /-- The host accesses the register window. -/
  | host (a : HostAccess)
  /-- The platform asserts reset (R240). -/
  | reset
deriving DecidableEq, Repr

/-- The level FANCTL last drove on each GPIO line, as a list of pin and level with pins strictly rising. A pin without an entry
is of unknown level (log entry 7): reset, `Cfg` and a failed `Set` leave a line so. -/
abbrev Pins := List (Nat × Bool)

/-- The machine's state. -/
structure State where
  /-- CMD read-back, CMDLAT (R21). -/
  cmdLat : Word
  /-- STATUS.STATE (R23). -/
  state : BlockState
  /-- STATUS.HELD (R24). -/
  held : Bool
  /-- STATUS.SBOUND (R25). -/
  sbound : Bool
  /-- STATUS.LINE (R26). -/
  line : Bool
  /-- STATUS.LVALID (R26). -/
  lvalid : Bool
  /-- STATUS.SLEEP (R27). -/
  sleep : Bool
  /-- STATUS.FCODE (R28). -/
  fcode : FaultCode
  /-- STATUS.REJ (R29). -/
  rej : Bool
  /-- STATUS.PERC (R30). -/
  perc : BitVec 7
  /-- CTRL.VERB (R31). -/
  verb : BitVec 2
  /-- CTRL.SFILT (R31). -/
  sfilt : Bool
  /-- TEMP (R32), signed. -/
  temp : Word
  /-- USEC bits 20:0 (R33). -/
  usec : BitVec 21
  /-- SEQ (R37). -/
  seq : Label
  /-- L_OP (R38). -/
  lOp : BitVec 4
  /-- L_PIN (R38). -/
  lPin : BitVec 6
  /-- L_FREQ (R38). -/
  lFreq : BitVec 6
  /-- L_ARG (R38). -/
  lArg : BitVec 16
  /-- L_VERB (R38). -/
  lVerb : BitVec 2
  /-- L_SFILT (R38). -/
  lSfilt : Bool
  /-- WREM (R39). -/
  wrem : BitVec 21
  /-- STOPREQ (R40). -/
  stopReq : Bool
  /-- Model's own: the port action issued and not yet ended (log entry 1). -/
  inFlight : Option Action
  /-- Model's own: what the terminating step under way writes when its `Close()` is answered (R120; log entry 11). -/
  ending : Option Ending
  /-- Model's own: how many resets there have been; a port action belongs to the epoch it is issued in (log entry 9). -/
  epoch : Nat
  /-- Model's own: a `Set` has succeeded in this command (R105). -/
  setDone : Bool
  /-- The GPIO pin space (R50): levels FANCTL last drove (log entry 7). -/
  pins : Pins
  /-- Model's own: the platform lets another agent drive the line (U3, U4; log entry 8). -/
  foreignDrive : Bool
  /-- Model's own: the answer the last host access got. -/
  bus : BusResponse
  /-- Model's own: timebase ticks consumed by `Wait` (R9). -/
  ticks : Nat
  /-- The trace port's records, oldest first (R230). -/
  trace : List TraceRec
  /-- Model's own: the port actions performed, oldest first (R9). -/
  actions : List PortEvent
  /-- Model's own: what the other agents do next (R8; log entry 2). -/
  inputs : List Input
deriving DecidableEq, Repr

/-- Why the machine stops with a fault. FANCTL's own faults (R200) are states of the machine and none of these. -/
inductive Fault where
  /-- Raised when the sequencer is BUSY at a label that the running command does not have (R37 gives such a label no action for
  it), or a wait is in progress at a label that does not wait. No run reaches such a state. SAFE (log entry 6). -/
  | seqOutsideCommand
deriving DecidableEq, Repr

/-- Why the machine gives no meaning. No arm of `exec` refuses. -/
inductive Refusal where
  /-- Reserved for an instruction without a meaning; every instruction has one, so nothing raises it. SAFE. -/
  | notModelled (mnemonic : String)
deriving DecidableEq, Repr

/-- The machine right after reset (R44, R240). The model's own fields hold what log entries 2, 7, 8 and 13 name. -/
def State.reset : State where
  cmdLat := 0x00000000
  state := .idle
  held := false
  sbound := false
  line := false
  lvalid := false
  sleep := false
  fcode := .none
  rej := false
  perc := 0
  verb := 0
  sfilt := true
  temp := 0xFFFFFC19
  usec := 0
  seq := .idle
  lOp := 0
  lPin := 0
  lFreq := 0
  lArg := 0
  lVerb := 0
  lSfilt := false
  wrem := 0
  stopReq := false
  inFlight := .none
  ending := .none
  epoch := 0
  setDone := false
  pins := []
  foreignDrive := false
  bus := .none
  ticks := 0
  trace := []
  actions := []
  inputs := []

end Sys2Proof.Machine
end

