-- ==== Sys2Proof/Machine/Operands.lean ====
section
/-! DEFINITION. The parameters of spec/00_scope.md R4, every operand form of spec/30_encoding.md R72 to R77, and the
arithmetic the command rules do on operands. All of it is over the integers (R6); no division has a zero divisor in a running
command (R76). -/

namespace Sys2Proof.Machine

/-! ### Parameters (R4) -/

/-- `N_PINS`: legal pins are 0 to 53. -/
def nPins : Nat := 54
/-- `FREQ_MAX`, in cycles per second. -/
def freqMax : Nat := 50
/-- `FREQ_DEFAULT` (R76). -/
def freqDefault : BitVec 6 := 25
/-- `DUTY_MAX`, in percent. -/
def dutyMax : Nat := 100
/-- `DEADBAND`, 5 degrees in milli-degrees. -/
def deadband : Int := 5000
/-- `HYST_TICK`, in microseconds. -/
def hystTick : Nat := 1000000
/-- `WINDOW`, in microseconds. -/
def window : Nat := 1000000
/-- `PERC_INIT`. -/
def percInit : BitVec 7 := 50
/-- `INVALID`, -999 milli-degrees (R41). -/
def invalid : Word := 0xFFFFFC19

/-! ### Legality of the fields (R125) -/

/-- PIN in 0..53 (R72). -/
def pinLegal (pin : BitVec 6) : Bool := decide (pin.toNat < nPins)
/-- FREQ in 0..50, 0 standing for the default (R73). -/
def freqLegal (freq : BitVec 6) : Bool := decide (freq.toNat ≤ freqMax)
/-- DUTY in 0..100 (R74). -/
def dutyLegal (arg : BitVec 16) : Bool := decide (arg.toNat ≤ dutyMax)

/-! ### Operand assembly -/

/-- The effective frequency `(FREQ == 0) ? 25 : FREQ` (R76). -/
def effFreq (freq : BitVec 6) : BitVec 6 := if freq = 0 then freqDefault else freq

/-- `DUTY = zext(L_ARG)` (R74). -/
def State.duty (s : State) : Nat := s.lArg.toNat

/-- `TARGET = sext(L_ARG)` in whole degrees (R74). -/
def State.target (s : State) : Int := s.lArg.toInt

/-- The upper threshold `1000*T` (R163, R176). -/
def State.high (s : State) : Int := 1000 * s.target

/-- The lower threshold `1000*T - 5000` (R163, R176). -/
def State.low (s : State) : Int := 1000 * s.target - deadband

/-! ### Pulse timing (R140) -/

/-- `q = 10000 div f`: microseconds per duty percent. -/
def usPerPercent (f : Nat) : Nat := 10000 / f

/-- `t_high = d * q`. -/
def tHigh (d f : Nat) : Nat := d * usPerPercent f

/-- `t_low = (100 - d) * q`. -/
def tLow (d f : Nat) : Nat := (100 - d) * usPerPercent f

/-- `period = 100 * q`. -/
def period (f : Nat) : Nat := 100 * usPerPercent f

/-- The running command's `q`, from L_FREQ (R140, R170). -/
def State.freqHz (s : State) : Nat := s.lFreq.toNat

/-- Pulses between two THERMO evaluations, `ceil(1,000,000 / (100*q))` (R182). -/
def pulsesPerWindow (f : Nat) : Nat := (window + period f - 1) / period f

/-! ### Rounding (R177) -/

/-- Milli-degrees to whole degrees, to the nearest, ties away from zero. -/
def roundDeg (t : Int) : Int := if 0 ≤ t then (t + 500) / 1000 else -((-t + 500) / 1000)

end Sys2Proof.Machine
end

