-- ==== Sys2Proof/Machine/Flags.lean ====
section
/-! DEFINITION. The register words the host reads, assembled from the fields (spec/10_state.md R20 to R34), and the codes the
enumerated fields have. FANCTL has no condition codes (R36): its flags are the bits of STATUS. -/

namespace Sys2Proof.Machine

/-- The code of STATUS.STATE (R23). -/
def BlockState.code : BlockState → BitVec 3
  | .idle => 0
  | .busy => 1
  | .done => 2
  | .stopped => 3
  | .fault => 4

/-- The code of STATUS.FCODE (R200). -/
def FaultCode.code : FaultCode → BitVec 4
  | .none => 0
  | .sensor => 1
  | .openFail => 2
  | .cfgFail => 3
  | .io => 4
  | .usage => 5

/-- The outcome code of a DECIDE record (R232). -/
def Decision.code : Decision → BitVec 4
  | .skip => 0
  | .noChange => 1
  | .on => 2
  | .off => 3
  | .sleepEnter => 4
  | .wake => 5
  | .inc => 6
  | .dec => 7
  | .hold => 8

/-- One bit of a register. -/
def bit (b : Bool) : BitVec 1 := BitVec.ofBool b

/-- STATUS (R22): reserved bits 31:23 and 15:13 read 0. -/
def State.statusWord (s : State) : Word :=
  0#9 ++ s.perc ++ 0#3 ++ bit s.rej ++ s.fcode.code ++ bit s.sleep ++ bit s.lvalid ++ bit s.line ++ bit s.sbound
    ++ bit s.held ++ s.state.code

/-- CTRL (R31): reserved bits 31:3 read 0. -/
def State.ctrlWord (s : State) : Word := 0#29 ++ bit s.sfilt ++ s.verb

/-- USEC (R33): bits 31:21 read 0. -/
def State.usecWord (s : State) : Word := 0#11 ++ s.usec

/-- The eight register slots by offset bits 4:2 (R20, R51). -/
inductive Slot where
  | cmd | status | ctrl | temp | usec | reserved14 | reserved18 | reserved1C
deriving DecidableEq, Repr

/-- FANCTL decodes offset bits 4:2 only (R51). -/
def slotOf (off : BitVec 5) : Slot :=
  match ((off.extractLsb' 2 3).toFin : Fin 8) with
  | 0 => .cmd
  | 1 => .status
  | 2 => .ctrl
  | 3 => .temp
  | 4 => .usec
  | 5 => .reserved14
  | 6 => .reserved18
  | 7 => .reserved1C

/-- What a read of a slot returns (R20, R21, R34). -/
def State.readSlot (s : State) : Slot → Word
  | .cmd => s.cmdLat
  | .status => s.statusWord
  | .ctrl => s.ctrlWord
  | .temp => s.temp
  | .usec => s.usecWord
  | .reserved14 => 0
  | .reserved18 => 0
  | .reserved1C => 0

end Sys2Proof.Machine
end

