-- ==== Sys2Proof/Machine/Ops.lean ====
section
/-! DEFINITION. The named operations: the GPIO pin space, the observation, the register window, each port action's effect
(spec/40_ports.md), acceptance, and the four ways a command ends (spec/41_lifecycle.md, spec/60_exceptions.md). -/

namespace Sys2Proof.Machine

/-! ### The GPIO pin space (R50) -/

/-- The level FANCTL last drove on a line, if known (log entry 7). -/
def pinLevel (p : Nat) : Pins → Option Bool
  | [] => none
  | (k, v) :: rest => if p = k then some v else if p < k then none else pinLevel p rest

/-- Line `p` is now at level `v`. -/
def pinPut (p : Nat) (v : Bool) : Pins → Pins
  | [] => [(p, v)]
  | (k, u) :: rest => if p = k then (p, v) :: rest else if p < k then (p, v) :: (k, u) :: rest else (k, u) :: pinPut p v rest

/-- The level of line `p` is no longer known (U2). -/
def pinForget (p : Nat) : Pins → Pins
  | [] => []
  | (k, u) :: rest => if p = k then rest else if p < k then (k, u) :: rest else (k, u) :: pinForget p rest

/-- The pin numbers of `ps` all exceed `lo`, and rise strictly. -/
def pinsAbove (lo : Nat) : Pins → Bool
  | [] => true
  | (k, _) :: rest => decide (lo < k) && pinsAbove k rest

/-- The canonical form: pins strictly rising. -/
def pinsWf : Pins → Bool
  | [] => true
  | (k, _) :: rest => pinsAbove k rest

/-! ### Inputs and the observation -/

/-- The next input has been taken. -/
def State.popInput (s : State) : State := { s with inputs := s.inputs.tail }

/-- A port action has ended: it joins the observation (R9). -/
def State.record (a : Action) (r : Response) (s : State) : State := { s with actions := s.actions ++ [⟨a, r⟩] }

/-- `Trace(rec)` appends `rec` to the trace port (R230, R233). -/
def State.emit (r : TraceRec) (s : State) : State := { s with trace := s.trace ++ [r] }

/-- A SETLOG record, when `L_VERB ≥ 2` (R230, R231). -/
def State.emitSetLog (p : BitVec 6) (v : Bool) (s : State) : State :=
  if 2 ≤ s.lVerb.toNat then s.emit (.setLog p v) else s

/-- A DECIDE record, when `L_VERB ≥ 1` (R230, R232). -/
def State.emitDecision (t : Word) (d : Decision) (perc : BitVec 7) (sleep : Bool) (s : State) : State :=
  if 1 ≤ s.lVerb.toNat then s.emit (.decision s.lOp t d perc sleep) else s

/-! ### Ending a command -/

/-- The last writes of a terminating step: those of R128, R127 and R210. -/
def State.finish (kind : EndKind) (s : State) : State :=
  match kind with
  | .done => { s with state := .done, seq := .idle, stopReq := false }
  | .stopped => { s with state := .stopped, seq := .idle, stopReq := false }
  | .fault code => { s with fcode := code, state := .fault, seq := .idle, stopReq := false, wrem := 0 }

/-- A terminating step (R120) after its last computation: `if STATUS.HELD == 1: Close()`, and then its last writes. `Close()` has a
latency like every port action (R111), so it is issued and stays in flight. Until it is answered the host reads LINE and LVALID
as they stood in `before`, for no access sees half a step (R54); `Ending` keeps the new values (DEDUCED, log entry 11). -/
def State.terminate (kind : EndKind) (before s : State) : State :=
  if s.held then
    { s with
      inFlight := some .closeCtl
      ending := some ⟨kind, s.line, s.lvalid⟩
      line := before.line
      lvalid := before.lvalid }
  else s.finish kind

/-- TAKING A FAULT: `raise Fault(code)` (spec/60_exceptions.md R210). Nothing else is saved, and there is no return (R212). -/
def State.raiseFault (code : FaultCode) (before s : State) : State := s.terminate (.fault code) before

/-- Normal completion of a one-shot command (R128). -/
def State.complete (before s : State) : State := s.terminate .done before

/-- The STOP step (R127). -/
def State.stopStep (s : State) : State := s.terminate .stopped s

/-! ### Port actions: issue, and the effect of each response -/

/-- A port action other than `Wait` is issued: it is in flight until its response (R111). -/
def State.launch (a : Action) (s : State) : State := { s with inFlight := some a }

/-- The action in flight has ended. -/
def State.land (s : State) : State := { s with inFlight := none }

/-- `Wait(n)` is issued: WREM <- n (R107). Every `n` of a running command fits in 21 bits (log entry 15). -/
def State.startWait (n : Nat) (s : State) : State := { s.launch (.wait n) with wrem := BitVec.ofNat 21 n }

/-- A tick of a `Wait` passes: WREM <- WREM - 1 (R107). -/
def State.countTick (s : State) : State := { s with wrem := s.wrem - 1, ticks := s.ticks + 1 }

/-- The tick that makes WREM 0 completes `Wait(n)` (R107). -/
def State.waited (n : Nat) (s : State) : State := s.countTick.land.record (.wait n) .completed

/-- A tick aborts the `Wait(n)` in progress, because a STOP is pending: WREM <- 0 (R127). -/
def State.abortWait (n : Nat) (s : State) : State :=
  { s.land.record (.wait n) .aborted with wrem := 0, ticks := s.ticks + 1 }

/-- `Bind()` answered ok: SBOUND <- 1 (R100). -/
def State.bound (s : State) : State := { s.land.record .bindSensor .ok with sbound := true }

/-- `TRead()` answered `t`: TEMP <- t (R101). -/
def State.temperature (t : Word) (s : State) : State := { s.land.record .readTemp (.reading t) with temp := t }

/-- `Open()` answered ok: HELD <- 1 (R102). -/
def State.opened (s : State) : State := { s.land.record .openCtl .ok with held := true }

/-- `Cfg(p)` answered ok (R103): "the level on the line is not given by any source", so it is no longer known (U1).
DESIGN CHOICE, safe, log entry 7. -/
def State.configured (p : BitVec 6) (s : State) : State :=
  { s.land.record (.cfgPin p) .ok with pins := pinForget p.toNat s.pins }

/-- `Cfg(p)` failed (R103): the line's level is no longer known either (DESIGN CHOICE, safe, log entry 7). The fault follows. -/
def State.configFailed (p : BitVec 6) (s : State) : State :=
  { s.land.record (.cfgPin p) .fail with pins := pinForget p.toNat s.pins }

/-- `Set(p, v)` answered ok (R104): LINE, LVALID, the line itself, then the SETLOG record. -/
def State.driven (p : BitVec 6) (v : Bool) (s : State) : State :=
  ({ s.land.record (.setPin p v) .ok with
      line := v, lvalid := true, setDone := true, pins := pinPut p.toNat v s.pins }).emitSetLog p v

/-- `Set(p, v)` failed (R104): LINE and LVALID are cleared and the line's level is unknown (U2). The fault follows. -/
def State.driveFailed (p : BitVec 6) (v : Bool) (s : State) : State :=
  { s.land.record (.setPin p v) .fail with line := false, lvalid := false, pins := pinForget p.toNat s.pins }

/-- The level `Get(p)` returns (R105): the level of the latest successful `Set` of this command, if there is one and nothing
else drives the line (U3); otherwise the GPIO controller's free draw. -/
def State.readback (p : BitVec 6) (draw : Bool) (s : State) : Bool :=
  if s.setDone && !s.foreignDrive then (pinLevel p.toNat s.pins).getD draw else draw

/-- `Get(p)` answered `g` (R105). -/
def State.sampled (p : BitVec 6) (g : Bool) (s : State) : State :=
  { s.land.record (.getPin p) (.level g) with line := g, lvalid := true }

/-- `Get(p)` failed (R105). The fault follows. -/
def State.sampleFailed (p : BitVec 6) (s : State) : State :=
  { s.land.record (.getPin p) .fail with line := false, lvalid := false }

/-- `Close()` answered: HELD <- 0, and "the line keeps whatever level it last held" (R106); then the last writes of the
terminating step that issued it. -/
def State.closed (e : Ending) (s : State) : State :=
  { s.land.record .closeCtl .ok with held := false, line := e.line, lvalid := e.lvalid, ending := none }.finish e.kind

/-! ### Commands at the register window -/

/-- Acceptance of the word `w` (R123). STATE and SEQ are validation's (R124); for PERC of a word that fails it, log entry 21. -/
def State.accept (w : Word) (s : State) : State :=
  { s with
    cmdLat := w
    lOp := fieldOp w
    lPin := fieldPin w
    lFreq := effFreq (fieldFreq w)
    lArg := fieldArg w
    lVerb := s.verb
    lSfilt := s.sfilt
    fcode := .none
    rej := false
    sbound := false
    held := false
    line := false
    lvalid := false
    sleep := false
    perc := if fieldOp w = 0x3 then percInit else 0
    usec := 0
    temp := invalid
    stopReq := false
    wrem := 0
    inFlight := none
    ending := none
    setDone := false
    bus := .written }

/-- A CMD write of a non-STOP word `w` (R122 to R126): rejected while BUSY; otherwise accepted, and then either started at its
entry label or turned into FAULT_USAGE. -/
def State.issue (w : Word) (valid : Bool) (entry : Label) (s : State) : State :=
  if s.state = .busy then { s with rej := true, bus := .written }
  else if valid then { s.accept w with state := .busy, seq := entry }
  else (s.accept w).raiseFault .usage (s.accept w)

/-- A CMD write of a STOP word (R122, R126): a request while BUSY, no effect otherwise. -/
def State.requestStop (s : State) : State :=
  if s.state = .busy then { s with stopReq := true, bus := .written } else { s with bus := .written }

/-- The only access FANCTL accepts: 4 bytes at a multiple of 4 (R52). -/
def accessOk (off : BitVec 5) (size : Nat) : Bool := decide (size = 4) && decide (off.toNat % 4 = 0)

/-- A host read (R52, R55): data, or a bus error; no side effect. -/
def State.hostRead (off : BitVec 5) (size : Nat) (s : State) : State :=
  if accessOk off size then { s with bus := .data (s.readSlot (slotOf off)) } else { s with bus := .error }

/-- A CTRL write stores bits 2:0 (R31). -/
def State.writeCtrl (w : Word) (s : State) : State :=
  { s with verb := w.extractLsb' 0 2, sfilt := w.getLsbD 2, bus := .written }

/-- A host write other than an accepted CMD write: CTRL is stored, read-only and reserved slots ignore it (R20, R34, R55), and
a misaligned or ill-sized write is a bus error that changes no state (R52). -/
def State.hostWrite (off : BitVec 5) (size : Nat) (w : Word) (s : State) : State :=
  if accessOk off size then
    if slotOf off = .ctrl then s.writeCtrl w else { s with bus := .written }
  else { s with bus := .error }

/-- The command word a host access issues: an accepted write to CMD (R21, R52). -/
def HostAccess.cmdWord : HostAccess → Option Word
  | .write off size w => if accessOk off size && decide (slotOf off = .cmd) then some w else none
  | .read _ _ => none

/-! ### Reset (R240) -/

/-- How reset ends the action in flight, if any: a `Wait` is aborted, any other action abandoned (R240). -/
def State.cutShort (s : State) : List PortEvent :=
  match s.inFlight with
  | none => []
  | some (.wait n) => [⟨.wait n, .aborted⟩]
  | some a => [⟨a, .abandoned⟩]

/-- Reset: every register and internal element takes its reset value; no `Close`, no trace record (R240). What lies outside
the block stays: the observation so far, the ticks counted, the platform's drivers, and the inputs still to come (log entry 12).
The next epoch begins: an answer of an abandoned action, if one comes later, belongs to an earlier one (log entry 9). -/
def State.resetNow (s : State) : State :=
  { State.reset with
    epoch := s.epoch + 1
    foreignDrive := s.foreignDrive
    ticks := s.ticks
    trace := s.trace
    actions := s.actions ++ s.cutShort
    inputs := s.inputs }

/-! ### The platform's address decoder (R51) -/

/-- The window offset of a host address, if the address lies in the window at `BASE`. -/
def windowOffset (addr : Nat) : Option (BitVec 5) :=
  if Config.base ≤ addr && decide (addr < Config.base + 32) then some (BitVec.ofNat 5 addr) else none

end Sys2Proof.Machine
end

