-- ==== Sys2Proof/Machine/Sequencer.lean ====
section
/-! DEFINITION. The sequencer's step (spec/41_lifecycle.md R120, R121): the port action SEQ names, its response, and the
computation that follows it. A command is given as a plan: for each of its labels, the action and that computation. -/

namespace Sys2Proof.Machine

/-- How the computation after a port action ends: at the label of the next action, or with the command complete (R128). -/
inductive Progress where
  | goto (l : Label) (s : State)
  | finished (s : State)

/-- The state a step that began in `before` ends in. -/
def Progress.settle (before : State) : Progress → State
  | .goto l s => { s with seq := l }
  | .finished s => s.complete before

/-- What a command does at one label: the port action, and the computation after its response (R120). -/
inductive Stage where
  | openCtl (next : State → Progress)
  | cfgPin (p : BitVec 6) (next : State → Progress)
  | setPin (p : BitVec 6) (v : Bool) (next : State → Progress)
  | getPin (p : BitVec 6) (next : Bool → State → Progress)
  | bindSensor (next : State → Progress)
  | readTemp (next : Word → State → Progress)
  | wait (n : Nat) (next : State → Progress)

/-- The port action of a stage. -/
def Stage.action : Stage → Action
  | .openCtl _ => .openCtl
  | .cfgPin p _ => .cfgPin p
  | .setPin p v _ => .setPin p v
  | .getPin p _ => .getPin p
  | .bindSensor _ => .bindSensor
  | .readTemp _ => .readTemp
  | .wait n _ => .wait n

/-- Issue a port action (R120; for `Wait`, R107). -/
def State.launchAction (a : Action) (s : State) : State :=
  match a with
  | .wait n => s.startWait n
  | a => s.launch a

/-- A GPIO action is answered (R102 to R105); a failure takes the fault of R200. An action of another port is not answered by
the GPIO controller: nothing changes. -/
def Stage.onGpio (ok level : Bool) (s : State) : Stage → State
  | .openCtl next =>
    if ok then (next s.opened).settle s else (s.land.record .openCtl .fail).raiseFault .openFail s
  | .cfgPin p next =>
    if ok then (next (s.configured p)).settle s else (s.configFailed p).raiseFault .cfgFail s
  | .setPin p v next =>
    if ok then (next (s.driven p v)).settle s else (s.driveFailed p v).raiseFault .io s
  | .getPin p next =>
    let g := s.readback p level
    if ok then (next g (s.sampled p g)).settle s else (s.sampleFailed p).raiseFault .io s
  | .bindSensor _ => s
  | .readTemp _ => s
  | .wait _ _ => s

/-- A sensor action is answered (R100, R101); `TRead()` never fails, whatever `ok` says. An action of another port is not
answered by the sensor: nothing changes. -/
def Stage.onSensor (ok : Bool) (t : Word) (s : State) : Stage → State
  | .bindSensor next =>
    if ok then (next s.bound).settle s else (s.land.record .bindSensor .fail).raiseFault .sensor s
  | .readTemp next => (next t (s.temperature t)).settle s
  | .openCtl _ => s
  | .cfgPin _ _ => s
  | .setPin _ _ _ => s
  | .getPin _ _ => s
  | .wait _ _ => s

/-- A timebase tick during `Wait(n)` (R107): the tick that makes WREM 0 completes the wait, with the priority of R213 over a
pending STOP (log entry 3); an earlier tick aborts the wait when a STOP is pending (R127; log entry 4), and counts otherwise. -/
def State.waitTick (n : Nat) (next : State → Progress) (s : State) : State :=
  if s.wrem = 1 then (next (s.waited n)).settle s
  else if s.stopReq then s.abortWait n
  else s.countTick

/-- The terminating step under way goes on when its `Close()` is answered (R106, R120). -/
def State.closeAnswered (s : State) : State :=
  match s.ending with
  | some e => s.closed e
  | none => s

/-- One input of the sequencer's side, for the command `plan` describes. At a step boundary the sequencer issues the action of
its label. While an action is in flight, only its own answer (for `Wait`, ticks) moves the command; any other input, an
answer of an action abandoned by reset among them, changes nothing (R240, U18; log entry 9). -/
def runCommand (plan : State → Label → Option Stage) (s : State) : Host.Outcome State Fault Refusal :=
  let s' := s.popInput
  match s.inputs.head?.getD .sequencer, s.inFlight with
  | .sequencer, none =>
    match plan s s.seq with
    | some stage => .next (s'.launchAction stage.action)
    | none => .fault .seqOutsideCommand
  | .gpio epoch ok level, some a =>
    if epoch ≠ s.epoch then .next s'
    else if a = .closeCtl then .next s'.closeAnswered
    else
      match plan s s.seq with
      | some stage => .next (stage.onGpio ok level s')
      | none => .fault .seqOutsideCommand
  | .sensor epoch ok t, some a =>
    if epoch ≠ s.epoch ∨ a = .closeCtl then .next s'
    else
      match plan s s.seq with
      | some stage => .next (stage.onSensor ok t s')
      | none => .fault .seqOutsideCommand
  | .tick, some (.wait _) =>
    match plan s s.seq with
    | some (.wait n next) => .next (s'.waitTick n next)
    | _ => .fault .seqOutsideCommand
  | _, _ => .next s'

/-- A command's whole meaning: the event of its CMD write when the host's access stands next (R122 to R126), and a step of the
sequencer otherwise (R120). -/
def command (i : Instr) (valid : Bool) (entry : Label) (plan : State → Label → Option Stage) (s : State) :
    Host.Outcome State Fault Refusal :=
  match s.inputs with
  | .host _ :: _ => .next (s.popInput.issue (encode i) valid entry)
  | _ => runCommand plan s

end Sys2Proof.Machine
end

