-- ==== Sys2Proof/Machine/Pulse.lean ====
section
/-! DEFINITION. The PWM Pulse Generator and the PULSE command (spec/42_pulse.md). The pulse's stages are shared by FIXED, PULSE
and THERMO (R37, R141). -/

namespace Sys2Proof.Machine

/-- The next label is that of `Wait(n)`, or, since `Wait(0)` is skipped (R107), where the pulse goes after it. -/
def waitOr (n : Nat) (l : Label) (skipped : State → Progress) (s : State) : Progress :=
  if n = 0 then skipped s else .goto l s

/-- The first label of `pulse(d)`: no high phase when `d = 0` (R141). -/
def pulseEntry (d : Nat) : Label := if 0 < d then .puSetH else .puSetL

/-- `pulse(d)` at frequency L_FREQ, and then `ret` (R140, R141). -/
def pulseStage (d : Nat) (s : State) (ret : State → Progress) : Label → Option Stage
  | .puSetH => some (.setPin s.lPin true (waitOr (tHigh d s.freqHz) .puWaitH (.goto .puSetL)))
  | .puWaitH => some (.wait (tHigh d s.freqHz) (.goto .puSetL))
  | .puSetL => some (.setPin s.lPin false (waitOr (tLow d s.freqHz) .puWaitL ret))
  | .puWaitL => some (.wait (tLow d s.freqHz) ret)
  | _ => none

/-- PULSE's stages (R142): the prologue, one pulse, completion. -/
def pulsePlan (s : State) : Label → Option Stage
  | .pOpen => some (.openCtl (.goto .pCfg))
  | .pCfg => some (.cfgPin s.lPin (.goto (pulseEntry s.duty)))
  | l => pulseStage s.duty s .finished l

/-- PULSE (R142). -/
def execPulse (pin freq : BitVec 6) (arg : BitVec 16) (s : State) : Host.Outcome State Fault Refusal :=
  command (.pulse pin freq arg) (pinLegal pin && freqLegal freq && dutyLegal arg) .pOpen pulsePlan s

end Sys2Proof.Machine
end

