-- ==== Sys2Proof/Machine/Fixed.lean ====
section
/-! DEFINITION. FIXED, the Fixed Duty Cycle strategy (spec/43_fixed.md). -/

namespace Sys2Proof.Machine

/-- FIXED's stages (R150): one `Set` for duty 0 or 100 (R151), pulses without end otherwise (R152). -/
def fixedPlan (s : State) : Label → Option Stage
  | .pOpen => some (.openCtl (.goto .pCfg))
  | .pCfg => some (.cfgPin s.lPin (.goto (if s.duty = 0 ∨ s.duty = 100 then .fxSet else .puSetH)))
  | .fxSet => some (.setPin s.lPin (decide (s.duty = 100)) .finished)
  | l => pulseStage s.duty s (.goto .puSetH) l

/-- FIXED (R150). -/
def execFixed (pin freq : BitVec 6) (arg : BitVec 16) (s : State) : Host.Outcome State Fault Refusal :=
  command (.fixed pin freq arg) (pinLegal pin && freqLegal freq && dutyLegal arg) .pOpen fixedPlan s

end Sys2Proof.Machine
end

