-- ==== Sys2Proof/Machine/Report.lean ====
section
/-! DEFINITION. The report commands RPIN and RTEMP (spec/46_report.md). -/

namespace Sys2Proof.Machine

/-- RPIN's stages (R190): no `Cfg`. -/
def rpinPlan (s : State) : Label → Option Stage
  | .pOpen => some (.openCtl (.goto .rpGet))
  | .rpGet => some (.getPin s.lPin fun _ => .finished)
  | _ => none

/-- RPIN (R190). -/
def execRpin (pin freq : BitVec 6) (arg : BitVec 16) (s : State) : Host.Outcome State Fault Refusal :=
  command (.rpin pin freq arg) (pinLegal pin) .pOpen rpinPlan s

/-- RTEMP's stages (R191): no GPIO action, and the sentinel is reported, not filtered. -/
def rtempPlan (_ : State) : Label → Option Stage
  | .rtBind => some (.bindSensor (.goto .rtTread))
  | .rtTread => some (.readTemp fun _ => .finished)
  | _ => none

/-- RTEMP (R191): validation always holds. -/
def execRtemp (pin freq : BitVec 6) (arg : BitVec 16) (s : State) : Host.Outcome State Fault Refusal :=
  command (.rtemp pin freq arg) true .rtBind rtempPlan s

end Sys2Proof.Machine
end

