-- ==== Sys2Proof/Machine/Reserved.lean ====
section
/-! DEFINITION. The reserved operations, OP 0x0 and 0x8 to 0xF (spec/30_encoding.md R79): accepted while not BUSY and then
FAULT_USAGE, rejected while BUSY. They never run, so they have no stage. -/

namespace Sys2Proof.Machine

/-- No label belongs to a reserved operation. -/
def noPlan (_ : State) (_ : Label) : Option Stage := none

/-- A reserved operation fails validation (R79, R125). -/
def reserved (i : Instr) (s : State) : Host.Outcome State Fault Refusal := command i false .idle noPlan s

/-- OP 0x0, "zero modes" (R79). -/
def execReserved0 (pin freq : BitVec 6) (arg : BitVec 16) (s : State) : Host.Outcome State Fault Refusal :=
  reserved (.reserved0 pin freq arg) s

/-- OP 0x8 (R79). -/
def execReserved8 (pin freq : BitVec 6) (arg : BitVec 16) (s : State) : Host.Outcome State Fault Refusal :=
  reserved (.reserved8 pin freq arg) s

/-- OP 0x9 (R79). -/
def execReserved9 (pin freq : BitVec 6) (arg : BitVec 16) (s : State) : Host.Outcome State Fault Refusal :=
  reserved (.reserved9 pin freq arg) s

/-- OP 0xA (R79). -/
def execReservedA (pin freq : BitVec 6) (arg : BitVec 16) (s : State) : Host.Outcome State Fault Refusal :=
  reserved (.reservedA pin freq arg) s

/-- OP 0xB (R79). -/
def execReservedB (pin freq : BitVec 6) (arg : BitVec 16) (s : State) : Host.Outcome State Fault Refusal :=
  reserved (.reservedB pin freq arg) s

/-- OP 0xC (R79). -/
def execReservedC (pin freq : BitVec 6) (arg : BitVec 16) (s : State) : Host.Outcome State Fault Refusal :=
  reserved (.reservedC pin freq arg) s

/-- OP 0xD (R79). -/
def execReservedD (pin freq : BitVec 6) (arg : BitVec 16) (s : State) : Host.Outcome State Fault Refusal :=
  reserved (.reservedD pin freq arg) s

/-- OP 0xE (R79). -/
def execReservedE (pin freq : BitVec 6) (arg : BitVec 16) (s : State) : Host.Outcome State Fault Refusal :=
  reserved (.reservedE pin freq arg) s

/-- OP 0xF (R79). -/
def execReservedF (pin freq : BitVec 6) (arg : BitVec 16) (s : State) : Host.Outcome State Fault Refusal :=
  reserved (.reservedF pin freq arg) s

end Sys2Proof.Machine
end

