-- ==== Sys2Proof/Machine/Stop.lean ====
section
/-! DEFINITION. STOP, the cancellation of a running command (spec/41_lifecycle.md R122, R126, R127). -/

namespace Sys2Proof.Machine

/-- STOP. When the host's write stands next: a request while BUSY, no effect otherwise (R122, R126). Otherwise the STOP step (R127):
the sequencer takes it at a step boundary with STOPREQ = 1, and the answer of its `Close()` ends it; any other input has no
effect. -/
def execStop (_pin _freq : BitVec 6) (_arg : BitVec 16) (s : State) : Host.Outcome State Fault Refusal :=
  match s.inputs with
  | .host _ :: _ => .next s.popInput.requestStop
  | _ =>
    match s.inputs.head?.getD .sequencer, s.inFlight with
    | .sequencer, none => if s.state = .busy ∧ s.stopReq = true then .next s.popInput.stopStep else .next s.popInput
    | .gpio epoch _ _, some .closeCtl => if epoch = s.epoch then .next s.popInput.closeAnswered else .next s.popInput
    | _, _ => .next s.popInput

end Sys2Proof.Machine
end

