-- ==== Sys2Proof/Machine/Hyst.lean ====
section
/-! DEFINITION. HYST, the Hysteresis Threshold strategy (spec/44_hysteresis.md). -/

namespace Sys2Proof.Machine

/-- The reading makes no decision: the sentinel, when it is filtered (R164, R176). -/
def State.filtered (t : Word) (s : State) : Bool := s.lSfilt && decide (t = invalid)

/-- The label of `read_temperature()` in HYST: bind first, once per command (R108, R161). -/
def State.hystStart (s : State) : Label := if s.sbound then .hyTread else .hyBind

/-- The end of a tick: the DECIDE record, with perc and sleep 0, then the wait (R160, R232). -/
def hystDecide (d : Decision) (s : State) : Progress := .goto .hyWait (s.emitDecision s.temp d 0 false)

/-- After `TRead() → t`: skip the tick, or read the pin (R162, R164). -/
def hystAfterTread (t : Word) (s : State) : Progress :=
  if s.filtered t then hystDecide .skip s else .goto .hyGet s

/-- After `Get() → g`: switch, or leave the line (R163). TEMP holds this tick's reading (R58). -/
def hystAfterGet (g : Bool) (s : State) : Progress :=
  if s.high < s.temp.toInt ∧ g = false then .goto .hySet s
  else if s.temp.toInt < s.low ∧ g = true then .goto .hySet s
  else hystDecide .noChange s

/-- The level HY_SET drives: on above the upper threshold, off otherwise (R163; log entry 10). -/
def State.hystLevel (s : State) : Bool := decide (s.high < s.temp.toInt)

/-- HYST's stages (R160). -/
def hystPlan (s : State) : Label → Option Stage
  | .pOpen => some (.openCtl (.goto .pCfg))
  | .pCfg => some (.cfgPin s.lPin fun s => .goto s.hystStart s)
  | .hyBind => some (.bindSensor (.goto .hyTread))
  | .hyTread => some (.readTemp hystAfterTread)
  | .hyGet => some (.getPin s.lPin hystAfterGet)
  | .hySet => some (.setPin s.lPin s.hystLevel fun s => hystDecide (if s.hystLevel then .on else .off) s)
  | .hyWait => some (.wait hystTick fun s => .goto s.hystStart s)
  | _ => none

/-- HYST (R160). -/
def execHyst (pin freq : BitVec 6) (arg : BitVec 16) (s : State) : Host.Outcome State Fault Refusal :=
  command (.hyst pin freq arg) (pinLegal pin) .pOpen hystPlan s

end Sys2Proof.Machine
end

