-- ==== Sys2Proof/Machine/Thermo.lean ====
section
/-! DEFINITION. THERMO, the PWM Thermostat strategy (spec/45_thermostat.md). -/

namespace Sys2Proof.Machine

/-- The first label of an iteration (R171): full-on (R172), pulse (R173) or sleep (R174). -/
def State.thermoStart (s : State) : Label :=
  if s.sleep = false ∧ s.perc = 100 then .thGet
  else if s.sleep = false then pulseEntry s.perc.toNat
  else .thGet

/-- The end of an iteration of `n` microseconds: USEC <- USEC + n, then the evaluation's first label if the window is full
(R172 to R175; `read_temperature()` binds first, R108), or the next iteration. -/
def thermoElapsed (n : Nat) (s : State) : Progress :=
  let s := { s with usec := BitVec.ofNat 21 (s.usec.toNat + n) }
  if window ≤ s.usec.toNat then .goto (if s.sbound then .thTread else .thBind) s else .goto s.thermoStart s

/-- The ramp, when awake (R178). -/
def ramp (t : Word) (s : State) : Decision × State :=
  let r := roundDeg t.toInt
  if s.target < r ∧ s.perc.toNat < 100 then (.inc, { s with perc := s.perc + 1 })
  else if r < s.target ∧ 0 < s.perc.toNat then (.dec, { s with perc := s.perc - 1 })
  else (.hold, s)

/-- `evaluate(t)`: the sentinel, the sleep transitions, the ramp (R176, R179). -/
def evaluate (t : Word) (s : State) : Decision × State :=
  if s.filtered t then (.skip, s)
  else if t.toInt < s.low ∧ s.sleep = false then (.sleepEnter, { s with sleep := true })
  else if s.high ≤ t.toInt ∧ s.sleep = true then (.wake, { s with sleep := false })
  else if s.sleep = false then ramp t s
  else (.noChange, s)

/-- After the evaluation's `TRead() → t`: evaluate, USEC <- 0, DECIDE, and the next iteration (R175, R180). -/
def thermoAfterTread (t : Word) (s : State) : Progress :=
  let (d, s1) := evaluate t s
  let s2 := { s1 with usec := 0 }
  .goto s2.thermoStart (s2.emitDecision t d s2.perc s2.sleep)

/-- The level `ensure` asks for: off in the sleep branch, on in the full-on branch (R172, R174; log entry 10). -/
def State.ensureLevel (s : State) : Bool := !s.sleep

/-- After `ensure`'s `Get() → g`: write only if the line differs (R109). -/
def thermoAfterGet (g : Bool) (s : State) : Progress :=
  if g = s.ensureLevel then .goto .thWait s else .goto .thSet s

/-- THERMO's stages (R170). -/
def thermoPlan (s : State) : Label → Option Stage
  | .pOpen => some (.openCtl (.goto .pCfg))
  | .pCfg => some (.cfgPin s.lPin fun s => .goto s.thermoStart s)
  | .thGet => some (.getPin s.lPin thermoAfterGet)
  | .thSet => some (.setPin s.lPin s.ensureLevel (.goto .thWait))
  | .thWait => some (.wait window (thermoElapsed window))
  | .thBind => some (.bindSensor (.goto .thTread))
  | .thTread => some (.readTemp thermoAfterTread)
  | l => pulseStage s.perc.toNat s (thermoElapsed (period s.freqHz)) l

/-- THERMO (R170). -/
def execThermo (pin freq : BitVec 6) (arg : BitVec 16) (s : State) : Host.Outcome State Fault Refusal :=
  command (.thermo pin freq arg) (pinLegal pin && freqLegal freq) .pOpen thermoPlan s

end Sys2Proof.Machine
end

