-- ==== Sys2Proof/Machine/Dispatch.lean ====
section
/-! DEFINITION. One arm per command (spec/opcode_table.json). -/

namespace Sys2Proof.Machine

/-- The meaning of a command. -/
def exec (i : Instr) (s : State) : Host.Outcome State Fault Refusal :=
  match i with
  | .fixed pin freq arg => Sys2Proof.Machine.execFixed pin freq arg s
  | .hyst pin freq arg => Sys2Proof.Machine.execHyst pin freq arg s
  | .thermo pin freq arg => Sys2Proof.Machine.execThermo pin freq arg s
  | .rpin pin freq arg => Sys2Proof.Machine.execRpin pin freq arg s
  | .rtemp pin freq arg => Sys2Proof.Machine.execRtemp pin freq arg s
  | .pulse pin freq arg => Sys2Proof.Machine.execPulse pin freq arg s
  | .stop pin freq arg => Sys2Proof.Machine.execStop pin freq arg s
  | .reserved0 pin freq arg => Sys2Proof.Machine.execReserved0 pin freq arg s
  | .reserved8 pin freq arg => Sys2Proof.Machine.execReserved8 pin freq arg s
  | .reserved9 pin freq arg => Sys2Proof.Machine.execReserved9 pin freq arg s
  | .reservedA pin freq arg => Sys2Proof.Machine.execReservedA pin freq arg s
  | .reservedB pin freq arg => Sys2Proof.Machine.execReservedB pin freq arg s
  | .reservedC pin freq arg => Sys2Proof.Machine.execReservedC pin freq arg s
  | .reservedD pin freq arg => Sys2Proof.Machine.execReservedD pin freq arg s
  | .reservedE pin freq arg => Sys2Proof.Machine.execReservedE pin freq arg s
  | .reservedF pin freq arg => Sys2Proof.Machine.execReservedF pin freq arg s

end Sys2Proof.Machine
end

