-- ==== Sys2Proof/Machine/Step.lean ====
section
/-! DEFINITION. One step of the machine: one move of one agent (spec/00_scope.md R8; log entry 2). The command that moves is
read by the decoder from the bus (a CMD write) or from the latches (a sequencer step). -/

namespace Sys2Proof.Machine

/-- The word the latches of the running command make up (R38). -/
def State.latchedWord (s : State) : Word := packCmd s.lOp s.lPin s.lFreq s.lArg

/-- A STOP step is under way: its `Close()` is in flight. -/
def State.stopping (s : State) : Bool := decide (s.ending.map Ending.kind = some .stopped)

/-- The command that takes the sequencer's side of this step (R120): STOP at a step boundary with STOPREQ = 1 and while the STOP
step is under way, the running command, read from its latches, otherwise (DEDUCED, log entry 14). -/
def State.moving (s : State) : Instr :=
  if (s.stopReq && s.inFlight.isNone) || s.stopping then .stop 0 0 0 else decodeWord s.latchedWord

/-- One step. A CMD write runs the command it carries, any other host access acts on the window, reset resets, and every other
input belongs to the running command, if there is one (R120: the sequencer steps only while BUSY). -/
def step (s : State) : Host.Outcome State Fault Refusal :=
  match s.inputs with
  | .reset :: _ => .next s.popInput.resetNow
  | .host a :: _ =>
    match a.cmdWord with
    | some w => exec (decodeWord w) s
    | none =>
      match a with
      | .read off size => .next (s.popInput.hostRead off size)
      | .write off size w => .next (s.popInput.hostWrite off size w)
  | _ => if s.state = .busy then exec s.moving s else .next s.popInput

/-- `s`, with a host write of the given command word to CMD standing next: the next step issues exactly it. -/
def State.withFetchWord (s : State) (nbits w : Nat) : State :=
  { s with inputs := .host (.write 0 4 (tableWord nbits w)) :: s.inputs }

end Sys2Proof.Machine
end

