-- ==== Sys2Proof/Machine/Assembler.lean ====
section
/-! DEFINITION. The assembler and disassembler of spec/30_encoding.md R83 and R84, over lines already split into mnemonic and
operands (log entry 17), and the host notation `W`, `R`, `POLL` as accesses to the window. -/

namespace Sys2Proof.Machine

/-- One assembly line (R83, R84). -/
inductive AsmLine where
  | fixed (pin duty : Nat) (freq : Option Nat)
  | hyst (pin : Nat) (target : Int)
  | thermo (pin : Nat) (target : Int) (freq : Option Nat)
  | rpin (pin : Nat)
  | rtemp
  | pulse (pin duty : Nat) (freq : Option Nat)
  | stop
  | word (w : Word)
  | fanOn (pin : Nat)
  | fanOff (pin : Nat)
deriving DecidableEq, Repr

/-- Assemble the fields of a word, if every operand is in its legal range; an omitted frequency is FREQ = 0 (R83). -/
def assembleFields (op : BitVec 4) (pin : Nat) (freq : Option Nat) (arg : BitVec 16) (argOk : Bool) : Option Word :=
  let f := freq.getD 0
  if pin < nPins ∧ f ≤ freqMax ∧ argOk = true then some (packCmd op (BitVec.ofNat 6 pin) (BitVec.ofNat 6 f) arg) else none

/-- A duty operand fits (R83). -/
def dutyFits (d : Nat) : Bool := decide (d ≤ dutyMax)

/-- A target operand fits (R83). -/
def targetFits (t : Int) : Bool := decide (-32768 ≤ t) && decide (t ≤ 32767)

/-- The word of a line; none where the assembler refuses an operand (R83). Ignored fields are 0. -/
def assemble : AsmLine → Option Word
  | .fixed pin duty freq => assembleFields 1 pin freq (BitVec.ofNat 16 duty) (dutyFits duty)
  | .hyst pin target => assembleFields 2 pin none (BitVec.ofInt 16 target) (targetFits target)
  | .thermo pin target freq => assembleFields 3 pin freq (BitVec.ofInt 16 target) (targetFits target)
  | .rpin pin => assembleFields 4 pin none 0 true
  | .rtemp => some (packCmd 5 0 0 0)
  | .pulse pin duty freq => assembleFields 6 pin freq (BitVec.ofNat 16 duty) (dutyFits duty)
  | .stop => some (packCmd 7 0 0 0)
  | .word w => some w
  | .fanOn pin => assembleFields 1 pin none 100 true
  | .fanOff pin => assembleFields 1 pin none 0 true

/-- A FREQ field as the disassembler prints it: 0 is "not given" (R73). -/
def freqShown (freq : BitVec 6) : Option Nat := if freq = 0 then none else some freq.toNat

/-- The line of a word: the mnemonic and the used fields; `.word` for OP 0x0 and 0x8 to 0xF (R83). -/
def disassemble (w : Word) : AsmLine :=
  match decodeWord w with
  | .fixed pin freq arg => .fixed pin.toNat arg.toNat (freqShown freq)
  | .hyst pin _ arg => .hyst pin.toNat arg.toInt
  | .thermo pin freq arg => .thermo pin.toNat arg.toInt (freqShown freq)
  | .rpin pin _ _ => .rpin pin.toNat
  | .rtemp _ _ _ => .rtemp
  | .pulse pin freq arg => .pulse pin.toNat arg.toNat (freqShown freq)
  | .stop _ _ _ => .stop
  | .reserved0 _ _ _ => .word w
  | .reserved8 _ _ _ => .word w
  | .reserved9 _ _ _ => .word w
  | .reservedA _ _ _ => .word w
  | .reservedB _ _ _ => .word w
  | .reservedC _ _ _ => .word w
  | .reservedD _ _ _ => .word w
  | .reservedE _ _ _ => .word w
  | .reservedF _ _ _ => .word w

/-- The offset of a register's slot (R20). -/
def Slot.offset : Slot → BitVec 5
  | .cmd => 0x00
  | .status => 0x04
  | .ctrl => 0x08
  | .temp => 0x0C
  | .usec => 0x10
  | .reserved14 => 0x14
  | .reserved18 => 0x18
  | .reserved1C => 0x1C

/-- `W reg, value` (R83). -/
def hostW (r : Slot) (v : Word) : Input := .host (.write r.offset 4 v)

/-- `R reg` (R83). -/
def hostR (r : Slot) : Input := .host (.read r.offset 4)

/-- `POLL reg, mask, value` is over when the value read satisfies `(value_read & mask) == value` (R83). -/
def pollDone (mask value : Word) : BusResponse → Bool
  | .data w => decide (w &&& mask = value)
  | _ => false

end Sys2Proof.Machine
end

