-- ==== Sys2Proof/Safety.lean ====
section
/-! DEFINITION. What counts as a good state and a good run, in the terms the statements use: the invariants of
spec/10_state.md R43, the stronger ones the command rules imply, and several steps in a row. -/

namespace Sys2Proof.Machine

/-! ### The running command -/

/-- The plan of an operation, by OP (R78). -/
def planOf (op : BitVec 4) : State → Label → Option Stage :=
  if op = 1 then fixedPlan
  else if op = 2 then hystPlan
  else if op = 3 then thermoPlan
  else if op = 4 then rpinPlan
  else if op = 5 then rtempPlan
  else if op = 6 then pulsePlan
  else noPlan

/-- The port action SEQ names for the running command (R37). -/
def State.named (s : State) : Option Action := (planOf s.lOp s s.seq).map Stage.action

/-- The labels of an operation (R37, column "used by"). -/
def labelsOf (op : BitVec 4) : List Label :=
  if op = 1 then [.pOpen, .pCfg, .puSetH, .puWaitH, .puSetL, .puWaitL, .fxSet]
  else if op = 2 then [.pOpen, .pCfg, .hyBind, .hyTread, .hyGet, .hySet, .hyWait]
  else if op = 3 then
    [.pOpen, .pCfg, .puSetH, .puWaitH, .puSetL, .puWaitL, .thGet, .thSet, .thWait, .thBind, .thTread]
  else if op = 4 then [.pOpen, .rpGet]
  else if op = 5 then [.rtBind, .rtTread]
  else if op = 6 then [.pOpen, .pCfg, .puSetH, .puWaitH, .puSetL, .puWaitL]
  else []

/-- `valid(w)`, as R125 writes it. -/
def validWord (w : Word) : Bool :=
  let pin := (fieldPin w).toNat
  let freq := (fieldFreq w).toNat
  let arg := (fieldArg w).toNat
  match (fieldOp w).toNat with
  | 1 => decide (pin ≤ 53) && decide (freq ≤ 50) && decide (arg ≤ 100)
  | 6 => decide (pin ≤ 53) && decide (freq ≤ 50) && decide (arg ≤ 100)
  | 2 => decide (pin ≤ 53)
  | 3 => decide (pin ≤ 53) && decide (freq ≤ 50)
  | 4 => decide (pin ≤ 53)
  | 5 => true
  | _ => false

/-- `entry(L_OP)` (R129). -/
def entryOf (op : BitVec 4) : Label := if op = 5 then .rtBind else .pOpen

/-! ### The invariants of R43 -/

/-- Item 1: outside BUSY the sequencer is at `IDLE`, holds nothing, waits for nothing and has no STOP pending. -/
abbrev State.restsWhenEnded (s : State) : Prop :=
  s.state ≠ .busy → s.seq = .idle ∧ s.held = false ∧ s.wrem = 0 ∧ s.stopReq = false

/-- Item 2: the handle is held only while BUSY. -/
abbrev State.heldOnlyBusy (s : State) : Prop := s.held = true → s.state = .busy

/-- Item 3: a fault code exactly in FAULT. -/
abbrev State.codeIffFault (s : State) : Prop := s.fcode ≠ .none ↔ s.state = .fault

/-- Item 4: PERC and USEC stay in range. -/
abbrev State.thermoInRange (s : State) : Prop := s.perc.toNat ≤ 100 ∧ s.usec.toNat < 2000000

/-- Item 5: only THERMO sleeps. -/
abbrev State.sleepIsThermo (s : State) : Prop :=
  s.sleep = true → s.lOp = 3 ∧ (s.state = .busy ∨ s.state = .stopped ∨ s.state = .fault)

/-- The five items of R43. -/
abbrev State.Legal (s : State) : Prop :=
  s.restsWhenEnded ∧ s.heldOnlyBusy ∧ s.codeIffFault ∧ s.thermoInRange ∧ s.sleepIsThermo

/-! ### What else holds of a running command -/

/-- The label belongs to the running command (R37). -/
abbrev State.labelFits (s : State) : Prop := s.state = .busy → s.seq ∈ labelsOf s.lOp

/-- The operands validation admitted (R72 to R76, R125). -/
abbrev State.operandsFit (s : State) : Prop :=
  s.state = .busy →
    (s.lOp ≠ 5 → s.lPin.toNat ≤ 53) ∧
    (s.lOp = 1 ∨ s.lOp = 3 ∨ s.lOp = 6 → 1 ≤ s.lFreq.toNat ∧ s.lFreq.toNat ≤ 50) ∧
    (s.lOp = 1 ∨ s.lOp = 6 → s.lArg.toNat ≤ 100)

/-- The latches are the fields of CMDLAT (R38). -/
abbrev State.latchesFit (s : State) : Prop :=
  s.lOp = fieldOp s.cmdLat ∧ s.lPin = fieldPin s.cmdLat ∧ s.lArg = fieldArg s.cmdLat

/-- WREM counts a wait in progress, down from its length, and nothing else (R39, R107). -/
def wremFits (flight : Option Action) (wrem : Nat) : Bool :=
  match flight with
  | some (.wait n) => decide (1 ≤ wrem) && decide (wrem ≤ n)
  | _ => decide (wrem = 0)

/-- A wait is 1 to 1,000,000 ticks (R107, R140, R161). -/
def waitBounded : Option Action → Bool
  | some (.wait n) => decide (1 ≤ n) && decide (n ≤ 1000000)
  | _ => true

/-- What is in flight is the action SEQ names, or the `Close()` of a terminating step, only while BUSY (R120), and WREM fits it. -/
abbrev State.flightFits (s : State) : Prop :=
  (s.inFlight ≠ none → s.state = .busy ∧ s.inFlight = if s.ending = none then s.named else some .closeCtl) ∧
    wremFits s.inFlight s.wrem.toNat = true

/-- Normal completion ends a one-shot command that holds the handle (R128), and a fault has a code (R200). -/
def EndKind.fits (op : BitVec 4) : EndKind → Bool
  | .done => decide (op ∈ ([1, 4, 6] : List (BitVec 4)))
  | .stopped => true
  | .fault code => decide (code ≠ .none)

/-- A terminating step is under way only while its `Close()` is in flight, with the handle held (R106, R120). -/
def State.endingOk (s : State) : Bool :=
  match s.ending with
  | none => true
  | some e =>
    decide (s.state = .busy) && decide (s.inFlight = some .closeCtl) && s.held && e.kind.fits s.lOp && (e.lvalid || !e.line)

/-- A terminating step under way fits the command and the port action in flight. -/
abbrev State.endingFits (s : State) : Prop := s.endingOk = true

/-- A named wait is 1 to 1,000,000 ticks. -/
abbrev State.waitFits (s : State) : Prop := s.state = .busy → waitBounded s.named = true

/-- The handle is held from `Open` on, except in RTEMP (R24, R191). -/
abbrev State.handleFits (s : State) : Prop :=
  s.state = .busy → (s.held = true ↔ s.seq ∉ [Label.pOpen, .rtBind, .rtTread])

/-- No temperature is read before the sensor is bound (R108), and `Bind()` is performed only when it is not (R25, R100). -/
abbrev State.boundFits (s : State) : Prop :=
  s.state = .busy →
    (s.seq ∈ [Label.hyTread, .thTread, .rtTread] → s.sbound = true) ∧
    (s.seq ∈ [Label.hyBind, .thBind, .rtBind] → s.sbound = false)

/-- The thermostat's registers: 0 for any other command, and room in the window for one more iteration, unless its evaluation
is due (R30, R33, R175). -/
abbrev State.windowFits (s : State) : Prop :=
  (s.lOp ≠ 3 → s.usec = 0 ∧ s.perc = 0) ∧
  (s.state = .busy → s.seq ∉ [Label.thBind, .thTread] → s.usec.toNat < 1000000)

/-- THERMO's label is in the branch SLEEP and PERC select (R171). -/
abbrev State.branchFits (s : State) : Prop :=
  s.state = .busy → s.lOp = 3 →
    (s.seq ∈ [Label.thGet, .thSet, .thWait] → s.sleep = true ∨ s.perc.toNat = 100) ∧
    (s.seq ∈ [Label.puSetH, .puWaitH, .puSetL, .puWaitL] → s.sleep = false ∧ s.perc.toNat < 100) ∧
    (s.seq ∈ [Label.pOpen, .pCfg] → s.sleep = false)

/-- HYST switches only at a reading outside the band (R163). -/
abbrev State.switchFits (s : State) : Prop :=
  s.state = .busy → s.seq = .hySet → s.high < s.temp.toInt ∨ s.temp.toInt < s.low

/-- The pin space is canonical; between the first successful `Set` of a running command and its terminating step the line is
known, and no such `Set` comes before the command's body or its only action on the line (R105); and LINE reads 0 when LVALID
is 0 (R26). -/
abbrev State.linesFit (s : State) : Prop :=
  pinsWf s.pins = true ∧
  (s.state = .busy → s.ending = none → s.setDone = true →
    (pinLevel s.lPin.toNat s.pins).isSome = true ∧ s.seq ∉ [Label.pOpen, .pCfg, .fxSet, .rpGet, .rtBind, .rtTread]) ∧
  (s.lvalid = false → s.line = false)

/-- The machine's invariant: R43, and what the command rules imply beside it. -/
structure State.Inv (s : State) : Prop where
  legal : s.Legal
  label : s.labelFits
  operands : s.operandsFit
  latches : s.latchesFit
  flight : s.flightFits
  ending : s.endingFits
  waits : s.waitFits
  handle : s.handleFits
  bind : s.boundFits
  window : s.windowFits
  branch : s.branchFits
  switch : s.switchFits
  lines : s.linesFit

/-! ### What a step adds to the observation -/

/-- The SETLOG record of a successful `Set(p, v)`, when the latched verbosity asks for it (R230, R231). -/
def State.setLogs (s : State) (p : BitVec 6) (v : Bool) : List TraceRec :=
  if 2 ≤ s.lVerb.toNat then [.setLog p v] else []

/-- The DECIDE record of a decision, when the latched verbosity asks for it (R230, R232). -/
def State.decisions (s : State) (t : Word) (d : Decision) (perc : BitVec 7) (sleep : Bool) : List TraceRec :=
  if 1 ≤ s.lVerb.toNat then [.decision s.lOp t d perc sleep] else []

/-- The agents that answer port actions (spec/00_scope.md R8). -/
inductive Port where
  | gpio | sensor | timebase
deriving DecidableEq, Repr

/-- Who answers a port action (spec/40_ports.md). -/
def Action.port : Action → Port
  | .openCtl => .gpio
  | .cfgPin _ => .gpio
  | .setPin _ _ => .gpio
  | .getPin _ => .gpio
  | .closeCtl => .gpio
  | .bindSensor => .sensor
  | .readTemp => .sensor
  | .wait _ => .timebase

/-- The fault code of a failed port action (R200). -/
def faultOf : Action → FaultCode
  | .bindSensor => .sensor
  | .openCtl => .openFail
  | .cfgPin _ => .cfgFail
  | _ => .io

/-- The pin a port action reaches, if it is a GPIO action on a pin. -/
def Action.pin? : Action → Option (BitVec 6)
  | .cfgPin p => some p
  | .setPin p _ => some p
  | .getPin p => some p
  | _ => none

/-- Which label a THERMO iteration starts at (R171). -/
def branchLabel (sleep : Bool) (perc : BitVec 7) : Label :=
  if sleep = true then .thGet else if perc = 100 then .thGet else if perc = 0 then .puSetL else .puSetH

/-! ### Words that differ only in ignored fields (R75, R80) -/

/-- The operations that use PIN (R75). -/
def usesPin (op : BitVec 4) : Bool := op ∈ [1, 2, 3, 4, 6]
/-- The operations that use FREQ (R75). -/
def usesFreq (op : BitVec 4) : Bool := op ∈ [1, 3, 6]
/-- The operations that use ARG (R75). -/
def usesArg (op : BitVec 4) : Bool := op ∈ [1, 2, 3, 6]

/-- The two words have the same operation with the same used fields. -/
def sameUsedFields (w w' : Word) : Prop :=
  fieldOp w = fieldOp w' ∧ (usesPin (fieldOp w) = true → fieldPin w = fieldPin w') ∧
  (usesFreq (fieldOp w) = true → fieldFreq w = fieldFreq w') ∧ (usesArg (fieldOp w) = true → fieldArg w = fieldArg w')

/-- The two states agree in everything but the CMD read-back, the latches of ignored fields, and what the bus last returned. -/
def State.agreesOnUsed (s t : State) : Prop :=
  t = { s with
    cmdLat := t.cmdLat
    lPin := if usesPin s.lOp = true then s.lPin else t.lPin
    lFreq := if usesFreq s.lOp = true then s.lFreq else t.lFreq
    lArg := if usesArg s.lOp = true then s.lArg else t.lArg
    bus := t.bus }

/-- Two outcomes of the same kind, with states that agree. -/
def outcomesAgree : Host.Outcome State Fault Refusal → Host.Outcome State Fault Refusal → Prop
  | .next s, .next t => s.agreesOnUsed t
  | .fault a, .fault b => a = b
  | .refused a, .refused b => a = b
  | _, _ => False

/-! ### Runs -/

/-- `n` steps, stopping at the first fault or refusal. -/
def steps : Nat → State → Host.Outcome State Fault Refusal
  | 0, s => .next s
  | n + 1, s =>
    match step s with
    | .next t => steps n t
    | .fault r => .fault r
    | .refused r => .refused r

/-- The running command `op` stands at a step boundary, at label `l`, with no STOP pending. -/
abbrev State.atLabel (s : State) (op : BitVec 4) (l : Label) : Prop :=
  s.state = .busy ∧ s.lOp = op ∧ s.seq = l ∧ s.inFlight = none ∧ s.stopReq = false

/-- The sequencer issues a GPIO action, and the GPIO controller answers ok (with the given draw for a `Get`), in epoch `e`. -/
def gpioOk (e : Nat) (level : Bool) : List Input := [.sequencer, .gpio e true level]

/-- The GPIO controller answers the `Close()` of a terminating step, in epoch `e`. -/
def closeOk (e : Nat) : List Input := [.gpio e true false]

/-- The sequencer issues a sensor action, and the sensor answers ok with the given reading, in epoch `e`. -/
def sensorOk (e : Nat) (t : Word) : List Input := [.sequencer, .sensor e true t]

/-- The sequencer issues `Wait(n)`, and `n` ticks pass; nothing for `Wait(0)`, which is skipped (R107). -/
def waitFor (n : Nat) : List Input := if n = 0 then [] else .sequencer :: List.replicate n .tick

/-- What the environment does for one undisturbed `pulse(d)` at frequency `f` in epoch `e` (R141). -/
def pulseInputs (e d f : Nat) : List Input :=
  (if d = 0 then [] else gpioOk e false ++ waitFor (d * (10000 / f))) ++ gpioOk e false ++ waitFor ((100 - d) * (10000 / f))

/-- The observation of a completed `Wait(n)`; nothing for `Wait(0)`. -/
def waitEvents (n : Nat) : List PortEvent := if n = 0 then [] else [⟨.wait n, .completed⟩]

/-- The observation of one undisturbed `pulse(d)` on pin `p` at frequency `f` (R141, R143). -/
def pulseEvents (p : BitVec 6) (d f : Nat) : List PortEvent :=
  (if d = 0 then [] else ⟨.setPin p true, .ok⟩ :: waitEvents (d * (10000 / f))) ++
    ⟨.setPin p false, .ok⟩ :: waitEvents ((100 - d) * (10000 / f))

/-- The trace of one undisturbed `pulse(d)` on L_PIN: one SETLOG for each `Set`, when asked for (R231). -/
def State.pulseLogs (s : State) (d : Nat) : List TraceRec :=
  (if d = 0 then [] else s.setLogs s.lPin true) ++ s.setLogs s.lPin false

end Sys2Proof.Machine
end

