-- ==== Sys2Proof/Certificates/Slice0/Obligations.lean ====
section
/-! DEFINITION. The statements for the provers. Each docstring names the rule of spec/ it formalises, or the log entry of the
model's choice it rests on. -/

open Sys2Proof Sys2Proof.Machine

/-! ### Encoding -/

/-- R70, R71, R78, R82: decoding an encoded command gives it back, with every field at every value, and consumes one word. -/
def Obligations.DecodingAnEncodedCommandGivesItBack : Prop :=
  ∀ (i : Instr) (rest : List Byte), decodeWord (encode i) = i ∧ decode (encodeBytes i ++ rest) = .ok (i, rest)

/-- R78, R79, R82: every 32-bit word is the word of the one command it decodes to, and fewer than four bytes are none. -/
def Obligations.EveryWordIsTheWordOfItsCommand : Prop :=
  (∀ w : Word, encode (decodeWord w) = w) ∧
  ∀ bs : List Byte, bs.length < 4 → decode bs = .error (.truncated bs.length)

/-- R78: OP alone selects the operation, by the opcode map. -/
def Obligations.OpAloneSelectsTheOperation : Prop :=
  ∀ w : Word, (decodeWord w).mnemonic =
    match (w.toNat % 16) with
    | 1 => "FIXED"
    | 2 => "HYST"
    | 3 => "THERMO"
    | 4 => "RPIN"
    | 5 => "RTEMP"
    | 6 => "PULSE"
    | 7 => "STOP"
    | _ => "RESERVED"

/-- R85: the encoding examples, word by word; the last four words are ill formed. -/
def Obligations.EncodingExamples : Prop :=
  assemble (.fixed 18 30 (some 25)) = some 0x001E6521 ∧
  assemble (.fixed 18 0 none) = some 0x00000121 ∧
  assemble (.fixed 18 100 none) = some 0x00640121 ∧
  assemble (.fixed 17 40 (some 10)) = some 0x00282911 ∧
  assemble (.hyst 18 60) = some 0x003C0122 ∧
  assemble (.hyst 17 45) = some 0x002D0112 ∧
  assemble (.hyst 4 (-10)) = some 0xFFF60042 ∧
  assemble (.thermo 18 50 (some 25)) = some 0x00326523 ∧
  assemble (.thermo 18 50 none) = some 0x00320123 ∧
  assemble (.thermo 17 45 (some 3)) = some 0x002D0D13 ∧
  assemble (.rpin 18) = some 0x00000124 ∧
  assemble .rtemp = some 0x00000005 ∧
  assemble (.pulse 18 30 (some 25)) = some 0x001E6526 ∧
  assemble (.pulse 18 0 (some 50)) = some 0x0000C926 ∧
  assemble (.pulse 18 100 (some 1)) = some 0x00640526 ∧
  assemble (.pulse 18 30 (some 3)) = some 0x001E0D26 ∧
  assemble .stop = some 0x00000007 ∧
  ∀ w : Word, w ∈ ([0x001E6761, 0x00656521, 0x001ECD21, 0x00000000] : List Word) →
    ∃ t, step (State.reset.withFetchWord 32 w.toNat) = .next t ∧ t.cmdLat = w ∧ t.state = .fault ∧ t.fcode = .usage

/-- R83: what the assembler accepts from a mnemonic line is a legal command, and the disassembled line assembles to it. -/
def Obligations.AssembledLinesAreLegalAndDisassemble : Prop :=
  ∀ (l : AsmLine) (w : Word), (∀ v, l ≠ .word v) → assemble l = some w →
    (decodeWord w).wellFormed = true ∧ assemble (disassemble w) = some w

/-- R125: a non-STOP command is well formed exactly when `valid(w)` holds. -/
def Obligations.WellFormedMeansValid : Prop :=
  ∀ w : Word, fieldOp w ≠ 7 → ((decodeWord w).wellFormed = true ↔
    match w.toNat % 16 with
    | 1 => w.toNat / 16 % 64 ≤ 53 ∧ w.toNat / 1024 % 64 ≤ 50 ∧ w.toNat / 65536 ≤ 100
    | 6 => w.toNat / 16 % 64 ≤ 53 ∧ w.toNat / 1024 % 64 ≤ 50 ∧ w.toNat / 65536 ≤ 100
    | 2 => w.toNat / 16 % 64 ≤ 53
    | 3 => w.toNat / 16 % 64 ≤ 53 ∧ w.toNat / 1024 % 64 ≤ 50
    | 4 => w.toNat / 16 % 64 ≤ 53
    | 5 => True
    | _ => False)

/-! ### Reset and the invariant -/

/-- R44: the reset value of every register, as the host reads it, and of every internal element. -/
def Obligations.ResetValues : Prop :=
  State.reset.readSlot .cmd = 0x00000000 ∧ State.reset.readSlot .status = 0x00000000 ∧
  State.reset.readSlot .ctrl = 0x00000004 ∧ State.reset.readSlot .temp = 0xFFFFFC19 ∧
  State.reset.readSlot .usec = 0 ∧ State.reset.readSlot .reserved14 = 0 ∧ State.reset.readSlot .reserved18 = 0 ∧
  State.reset.readSlot .reserved1C = 0 ∧ State.reset.seq = .idle ∧ State.reset.lOp = 0 ∧ State.reset.lPin = 0 ∧
  State.reset.lFreq = 0 ∧ State.reset.lArg = 0 ∧ State.reset.lVerb = 0 ∧ State.reset.lSfilt = false ∧
  State.reset.wrem = 0 ∧ State.reset.stopReq = false ∧ State.reset.held = false ∧ State.reset.trace = []

/-- R240: reset, whatever the state: every register and internal element at its reset value, no `Close`, no trace record, and
nothing pending but the inputs still to come. That the observation, the tick count and the platform's drivers stay, and that the
model counts a new epoch, is the model's choice (log entries 9 and 12). -/
def Obligations.ResetOverridesEverything : Prop :=
  ∀ (s : State) (rest : List Input), s.inputs = .reset :: rest →
    ∃ t new, step s = .next t ∧
      t = { State.reset with
        epoch := s.epoch + 1, foreignDrive := s.foreignDrive, ticks := s.ticks, trace := s.trace, actions := s.actions ++ new,
        inputs := rest } ∧
      (s.inFlight = none → new = []) ∧ ∀ e ∈ new, some e.action = s.inFlight ∧ (e.response = .aborted ∨ e.response = .abandoned)

/-- R43, at reset. -/
def Obligations.ResetMeetsTheInvariant : Prop := State.reset.Inv

/-- R43: the five items hold after every step and every host access, from every state that meets the model's invariant, which
every step keeps. -/
def Obligations.EveryStepKeepsTheInvariant : Prop :=
  ∀ s t : State, s.Inv → step s = .next t → t.Inv

/-- No ordinary input ends a run: from every state that meets the invariant, the step answers a next state (R120, R207, R212,
R233; the model's one fault, log entry 6, is never reached). -/
def Obligations.NoStepStopsTheMachine : Prop :=
  ∀ s : State, s.Inv → ∃ t, step s = .next t

/-! ### Which command a step runs -/

/-- R21, R53, R54: when the bytes the host puts on the bus for CMD decode to a command, the step is that command's meaning. -/
def Obligations.CmdWriteRunsTheDecodedCommand : Prop :=
  ∀ (s : State) (w : Word) (i : Instr) (rest : List Input),
    decode (lanes w) = .ok (i, []) → s.inputs = .host (.write 0 4 w) :: rest → step s = exec i s

/-- R120: while BUSY, a step of the sequencer's side runs the command packed from the latches and decoded; or STOP, at a step
boundary with STOPREQ = 1 and until the `Close()` of that STOP step is answered. That the command is read from the latches and
not from CMDLAT is the model's reading of R38 (DEDUCED, log entry 14); the `Close()` in flight is log entry 11's. -/
def Obligations.SequencerStepRunsTheLatchedCommand : Prop :=
  ∀ s : State, s.state = .busy → (∀ a, s.inputs.head? ≠ some (.host a)) → s.inputs.head? ≠ some .reset →
    ((s.stopReq = false ∨ s.inFlight ≠ none) → (∀ e, s.ending = some e → e.kind ≠ .stopped) →
      step s = exec (decodeWord (packCmd s.lOp s.lPin s.lFreq s.lArg)) s) ∧
    ((s.stopReq = true ∧ s.inFlight = none) ∨ (∃ e, s.ending = some e ∧ e.kind = .stopped) → step s = exec (.stop 0 0 0) s)

/-- R120: outside BUSY nothing but the host and reset changes the machine. Answers and ticks that belong to nothing change
nothing: with no action in flight, every answer and every tick; with one in flight, the sequencer's move, an answer of another
port and a tick that no wait counts; and in any state an answer of another epoch, of an action that reset has abandoned. R240 and
U18 say it of the last; for the others it is the model's reading (DEDUCED, log entries 9 and 19). -/
def Obligations.StrayInputsChangeNothing : Prop :=
  ∀ (s : State) (x : Input) (rest : List Input), s.inputs = x :: rest →
    ((s.state ≠ .busy ∧ (∀ a, x ≠ .host a) ∧ x ≠ .reset) ∨
      (s.inFlight = none ∧ ((∃ e ok l, x = .gpio e ok l) ∨ (∃ e ok t, x = .sensor e ok t) ∨ x = .tick)) ∨
      (s.Inv ∧ ∃ a, s.inFlight = some a ∧
        (x = .sequencer ∨ (a.port ≠ .gpio ∧ ∃ e ok l, x = .gpio e ok l) ∨ (a.port ≠ .sensor ∧ ∃ e ok t, x = .sensor e ok t) ∨
          (a.port ≠ .timebase ∧ x = .tick))) ∨
      (∃ e, e ≠ s.epoch ∧ ((∃ ok l, x = .gpio e ok l) ∨ ∃ ok t, x = .sensor e ok t))) →
    step s = .next { s with inputs := rest }

/-! ### Acceptance, validation, rejection -/

/-- R122, R123, R124, R129: a CMD write of a non-STOP word outside BUSY latches the word and CTRL, clears what R123 clears, and
then starts the command at its entry label, or, where `valid(w)` fails, enters FAULT with FAULT_USAGE and no port action.
Every other field keeps its value. (PERC after a THERMO word that fails validation: log entry 21.) -/
def Obligations.AcceptanceLatchesAndStartsOrFaults : Prop :=
  ∀ (i : Instr) (s : State) (rest : List Input), s.inputs = .host (.write 0 4 (encode i)) :: rest → s.state ≠ .busy →
    fieldOp (encode i) ≠ 7 →
    exec i s = .next { s with
      cmdLat := encode i
      lOp := fieldOp (encode i)
      lPin := fieldPin (encode i)
      lFreq := if fieldFreq (encode i) = 0 then 25 else fieldFreq (encode i)
      lArg := fieldArg (encode i)
      lVerb := s.verb
      lSfilt := s.sfilt
      fcode := if validWord (encode i) = true then .none else .usage
      rej := false
      sbound := false
      held := false
      line := false
      lvalid := false
      sleep := false
      perc := if fieldOp (encode i) = 3 then 50 else 0
      usec := 0
      temp := 0xFFFFFC19
      stopReq := false
      wrem := 0
      state := if validWord (encode i) = true then .busy else .fault
      seq := if validWord (encode i) = true then entryOf (fieldOp (encode i)) else .idle
      inFlight := none
      ending := none
      setDone := false
      bus := .written
      inputs := rest }

/-- R79: each reserved operation, written outside BUSY, is accepted, latched in CMDLAT and enters FAULT with FAULT_USAGE, with
no port action and no trace record; written while BUSY, it is rejected. -/
def Obligations.ReservedOperationsFaultUsage : Prop :=
  ∀ (pin freq : BitVec 6) (arg : BitVec 16) (i : Instr) (s : State) (rest : List Input),
    i ∈ [Instr.reserved0 pin freq arg, .reserved8 pin freq arg, .reserved9 pin freq arg, .reservedA pin freq arg,
      .reservedB pin freq arg, .reservedC pin freq arg, .reservedD pin freq arg, .reservedE pin freq arg,
      .reservedF pin freq arg] →
    s.inputs = .host (.write 0 4 (encode i)) :: rest →
    (s.state ≠ .busy → ∃ t, exec i s = .next t ∧ t.cmdLat = encode i ∧ t.state = .fault ∧ t.fcode = .usage ∧
      t.seq = .idle ∧ t.held = false ∧ t.actions = s.actions ∧ t.trace = s.trace ∧ t.pins = s.pins ∧
      t.verb = s.verb ∧ t.sfilt = s.sfilt ∧ t.inputs = rest) ∧
    (s.state = .busy → exec i s = .next { s with rej := true, bus := .written, inputs := rest })

/-- R122, R126: the CMD writes that start nothing. While BUSY, STOP sets STOPREQ, any other word sets REJ, and nothing else
changes; outside BUSY, STOP has no effect. -/
def Obligations.CmdWritesThatStartNothing : Prop :=
  ∀ (i : Instr) (s : State) (rest : List Input), s.inputs = .host (.write 0 4 (encode i)) :: rest →
    (s.state = .busy → fieldOp (encode i) = 7 →
      exec i s = .next { s with stopReq := true, bus := .written, inputs := rest }) ∧
    (s.state = .busy → fieldOp (encode i) ≠ 7 → exec i s = .next { s with rej := true, bus := .written, inputs := rest }) ∧
    (s.state ≠ .busy → fieldOp (encode i) = 7 → exec i s = .next { s with bus := .written, inputs := rest })

/-- R130: what one command leaves does not reach the next: two states outside BUSY with the same CTRL and the same environment
accept a command alike. -/
def Obligations.NothingElseCarriesOver : Prop :=
  ∀ (i : Instr) (s t : State), s.state ≠ .busy → t.state ≠ .busy → fieldOp (encode i) ≠ 7 →
    s.inputs.head? = some (.host (.write 0 4 (encode i))) →
    s.verb = t.verb → s.sfilt = t.sfilt → s.pins = t.pins → s.foreignDrive = t.foreignDrive → s.epoch = t.epoch →
    s.ticks = t.ticks →
    s.trace = t.trace → s.actions = t.actions → s.inputs = t.inputs → exec i s = exec i t

/-- R80: two CMD words that differ only in ignored fields leave states that agree on everything used; states that agree so take
steps that agree so, for every input; and every register but CMD then reads the same: they behave identically but for the CMD
read-back. -/
def Obligations.IgnoredFieldsNeverMatter : Prop :=
  (∀ (s : State) (w w' : Word) (rest : List Input), sameUsedFields w w' →
    s.inputs = .host (.write 0 4 w) :: rest →
    outcomesAgree (step s) (step { s with inputs := .host (.write 0 4 w') :: rest })) ∧
  ∀ s t : State, s.agreesOnUsed t →
    outcomesAgree (step s) (step t) ∧ ∀ slot : Slot, slot ≠ .cmd → s.readSlot slot = t.readSlot slot

/-- R63: while a command runs, no step but reset changes its latches or the CMD read-back. -/
def Obligations.RunningCommandKeepsItsConfiguration : Prop :=
  ∀ s t : State, s.state = .busy → s.inputs.head? ≠ some .reset → step s = .next t →
    t.lOp = s.lOp ∧ t.lPin = s.lPin ∧ t.lFreq = s.lFreq ∧ t.lArg = s.lArg ∧ t.lVerb = s.lVerb ∧ t.lSfilt = s.lSfilt ∧
    t.cmdLat = s.cmdLat

/-! ### The register window -/

/-- R22, R23, R28, R31, R33: the bits of STATUS, CTRL and USEC; reserved bits read 0. -/
def Obligations.RegisterLayouts : Prop :=
  ∀ s : State,
    s.statusWord.toNat = (match s.state with | .idle => 0 | .busy => 1 | .done => 2 | .stopped => 3 | .fault => 4)
      + 8 * s.held.toNat + 16 * s.sbound.toNat + 32 * s.line.toNat + 64 * s.lvalid.toNat + 128 * s.sleep.toNat
      + 256 * (match s.fcode with | .none => 0 | .sensor => 1 | .openFail => 2 | .cfgFail => 3 | .io => 4 | .usage => 5)
      + 4096 * s.rej.toNat + 65536 * s.perc.toNat ∧
    s.ctrlWord.toNat = s.verb.toNat + 4 * s.sfilt.toNat ∧ s.usecWord.toNat = s.usec.toNat

/-- R20, R21, R31, R34, R54, R55, R244: an accepted read returns its slot's register and has no side effect; a CTRL write stores
bits 2:0 and nothing else changes (the running command keeps `L_VERB` and `L_SFILT`); a write to a read-only or reserved slot has
no effect. -/
def Obligations.WindowAccessesReachTheirSlot : Prop :=
  ∀ (s : State) (off : BitVec 5) (w : Word) (rest : List Input),
    (s.inputs = .host (.read off 4) :: rest → off.toNat % 4 = 0 →
      step s = .next { s with
        bus := .data (match off.toNat with
          | 0x00 => s.cmdLat
          | 0x04 => s.statusWord
          | 0x08 => s.ctrlWord
          | 0x0C => s.temp
          | 0x10 => s.usecWord
          | _ => 0)
        inputs := rest }) ∧
    (s.inputs = .host (.write off 4 w) :: rest → off = 0x08 →
      ∃ t, step s = .next t ∧ t = { s with verb := t.verb, sfilt := t.sfilt, bus := .written, inputs := rest } ∧
        t.ctrlWord = w &&& 7) ∧
    (s.inputs = .host (.write off 4 w) :: rest → off ∈ ([0x04, 0x0C, 0x10, 0x14, 0x18, 0x1C] : List (BitVec 5)) →
      step s = .next { s with bus := .written, inputs := rest })

/-- R52: an access of another width or at a misaligned offset gets a bus error, returns no data and changes no state. That it is a
next state, where R52 says that a model treats it as refused, is the model's reading (DEDUCED, log entry 5). -/
def Obligations.OtherAccessesAreBusErrors : Prop :=
  ∀ (s : State) (off : BitVec 5) (size : Nat) (w : Word) (rest : List Input),
    (size ≠ 4 ∨ off.toNat % 4 ≠ 0) →
    (s.inputs = .host (.read off size) :: rest ∨ s.inputs = .host (.write off size w) :: rest) →
    step s = .next { s with bus := .error, inputs := rest }

/-- R51: `BASE` is a multiple of 32. The platform's decoder, which sees an address in the window as its offset and no other address
as FANCTL's, is the model's choice (DESIGN CHOICE, log entry 18). -/
def Obligations.WindowIsDecodedAtBase : Prop :=
  Config.base % 32 = 0 ∧ (∀ k : Nat, k < 32 → windowOffset (Config.base + k) = some (BitVec.ofNat 5 k)) ∧
  ∀ a : Nat, a < Config.base ∨ Config.base + 32 ≤ a → windowOffset a = none

/-! ### Issue, answers, waits -/

/-- R37, R120: at a step boundary with no STOP pending, the running command issues the action its label names, with the
arguments of R37, R140, R151, R163 and R109; `Wait(n)` sets WREM to `n` (R107). Nothing else changes. -/
def Obligations.SequencerIssuesTheNamedAction : Prop :=
  ∀ (s : State) (rest : List Input), s.Inv → s.state = .busy → s.inFlight = none → s.stopReq = false →
    s.inputs = .sequencer :: rest →
    ∃ a n, step s = .next { s with inFlight := some a, wrem := n, inputs := rest } ∧
      (match a with | .wait k => n.toNat = k ∧ 1 ≤ k | _ => n = 0) ∧
      a = (match s.seq with
        | .idle => a
        | .pOpen => .openCtl
        | .pCfg => .cfgPin s.lPin
        | .puSetH => .setPin s.lPin true
        | .puWaitH => .wait ((if s.lOp = 3 then s.perc.toNat else s.lArg.toNat) * (10000 / s.lFreq.toNat))
        | .puSetL => .setPin s.lPin false
        | .puWaitL => .wait ((100 - if s.lOp = 3 then s.perc.toNat else s.lArg.toNat) * (10000 / s.lFreq.toNat))
        | .fxSet => .setPin s.lPin (decide (s.lArg.toNat = 100))
        | .hyBind => .bindSensor
        | .hyTread => .readTemp
        | .hyGet => .getPin s.lPin
        | .hySet => .setPin s.lPin (decide (1000 * s.lArg.toInt < s.temp.toInt))
        | .hyWait => .wait 1000000
        | .thGet => .getPin s.lPin
        | .thSet => .setPin s.lPin (!s.sleep)
        | .thWait => .wait 1000000
        | .thBind => .bindSensor
        | .thTread => .readTemp
        | .rpGet => .getPin s.lPin
        | .rtBind => .bindSensor
        | .rtTread => .readTemp)

/-- R107, R127: a tick of a wait in progress that is not its last: WREM counts down by 1; with a STOP pending, the wait is
aborted instead. Nothing else changes, and the STOP step is still to come (log entry 4). -/
def Obligations.TicksCountDownOrAbort : Prop :=
  ∀ (s : State) (n : Nat) (rest : List Input), s.Inv → s.inFlight = some (.wait n) → s.inputs = .tick :: rest →
    1 < s.wrem.toNat →
    (s.stopReq = false → step s = .next { s with
      wrem := BitVec.ofNat 21 (s.wrem.toNat - 1), ticks := s.ticks + 1, inputs := rest }) ∧
    (s.stopReq = true → step s = .next { s with
      wrem := 0, inFlight := none, ticks := s.ticks + 1, actions := s.actions ++ [⟨.wait n, .aborted⟩], inputs := rest })

/-- R107, R213: the tick that makes WREM 0 completes the wait, whether or not a STOP is pending (log entry 3: the model reads
R213's order so). No action is then in flight, but the `Close()` of PULSE's last step (log entry 11). -/
def Obligations.LastTickCompletesTheWait : Prop :=
  ∀ (s : State) (n : Nat) (rest : List Input), s.Inv → s.inFlight = some (.wait n) → s.inputs = .tick :: rest →
    s.wrem.toNat = 1 →
    ∃ t, step s = .next t ∧ t.wrem = 0 ∧ t.inFlight = (if s.lOp = 6 ∧ s.seq = .puWaitL then some .closeCtl else none) ∧
      t.ticks = s.ticks + 1 ∧ t.inputs = rest ∧ t.state = .busy ∧ t.stopReq = s.stopReq ∧
      t.actions = s.actions ++ [⟨.wait n, .completed⟩]

/-- R200, R201, R202, R203, R204, R210: a failed port action raises its fault. With no handle held, FCODE and STATE say it in the
same machine step; with the handle held, the `Close()` of R210 is issued, and its answer ends the command with that code, LINE and
LVALID cleared after a failed `Set` or `Get` (the latency of `Close()`, and that LINE and LVALID stay as they were until its
answer, is log entry 11's reading of R54, R111 and R120). After a failed `Set` or `Cfg` the line's level is unknown (U2; log entry
7). Everything else keeps its value. -/
def Obligations.FailedActionsRaiseTheirFault : Prop :=
  ∀ (s : State) (a : Action) (x : Input) (rest : List Input), s.Inv → s.inFlight = some a → s.inputs = x :: rest →
    ((a = .bindSensor ∧ ∃ t, x = .sensor s.epoch false t) ∨
      ((a = .openCtl ∨ (∃ p, a = .cfgPin p) ∨ (∃ p v, a = .setPin p v) ∨ ∃ p, a = .getPin p) ∧
        ∃ l, x = .gpio s.epoch false l)) →
    (s.held = false → step s = .next { s with
      fcode := faultOf a
      state := .fault
      seq := .idle
      stopReq := false
      wrem := 0
      inFlight := none
      actions := s.actions ++ [⟨a, .fail⟩]
      inputs := rest }) ∧
    (s.held = true → step s = .next { s with
      inFlight := some .closeCtl
      ending := match a with
        | .setPin _ _ => some ⟨.fault .io, false, false⟩
        | .getPin _ => some ⟨.fault .io, false, false⟩
        | a => some ⟨.fault (faultOf a), s.line, s.lvalid⟩
      pins := match a with
        | .setPin p _ => pinForget p.toNat s.pins
        | .cfgPin p => pinForget p.toNat s.pins
        | _ => s.pins
      actions := s.actions ++ [⟨a, .fail⟩]
      inputs := rest })

/-- R213, R127: a port action other than `Wait` that is in flight when a STOP is pending is not aborted: its answer does what it
does without the STOP, and STOPREQ stays set only while the command still runs. (The `Close()` of the STOP step itself is not
meant.) -/
def Obligations.PendingStopDoesNotTouchTheActionInFlight : Prop :=
  ∀ (s t : State) (a : Action) (x : Input) (rest : List Input), s.Inv → s.stopReq = true → s.inFlight = some a →
    (∀ n, a ≠ .wait n) → (∀ e, s.ending = some e → e.kind ≠ .stopped) → s.inputs = x :: rest →
    ((∃ e ok l, x = .gpio e ok l) ∨ ∃ e ok r, x = .sensor e ok r) → step s = .next t →
    t.state ≠ .stopped ∧ step { s with stopReq := false } = .next { t with stopReq := false } ∧
    (t.stopReq = true ↔ t.state = .busy)

/-- R104, R231: a successful `Set` drives its line and no other, its SETLOG record comes first, and LINE and LVALID take its level:
at once, or, where it is the command's last action, when the `Close()` that follows is answered (log entry 11). -/
def Obligations.SuccessfulSetDrivesTheLine : Prop :=
  ∀ (s : State) (p : BitVec 6) (v l : Bool) (rest : List Input), s.Inv → s.inFlight = some (.setPin p v) →
    s.inputs = .gpio s.epoch true l :: rest →
    ∃ t, step s = .next t ∧ t.setDone = true ∧ pinLevel p.toNat t.pins = some v ∧
      (∀ r, r ≠ p.toNat → pinLevel r t.pins = pinLevel r s.pins) ∧ (s.trace ++ s.setLogs p v) <+: t.trace ∧
      t.actions = s.actions ++ [⟨.setPin p v, .ok⟩] ∧
      ((t.inFlight = none ∧ t.ending = none ∧ t.line = v ∧ t.lvalid = true) ∨
        ((s.seq = .fxSet ∨ (s.lOp = 6 ∧ s.lArg.toNat = 100 ∧ s.seq = .puSetL)) ∧ t.inFlight = some .closeCtl ∧
          t.ending = some ⟨.done, v, true⟩ ∧ t.line = s.line ∧ t.lvalid = s.lvalid))

/-- R105, R251: a successful `Get` returns the level of this command's latest successful `Set`, if there is one and nothing
else drives the line, and the GPIO controller's draw otherwise; no line changes, and LINE and LVALID report the level: at once,
or, in RPIN, when the `Close()` that follows is answered (log entry 11). -/
def Obligations.GetReadsBackTheLatestSet : Prop :=
  ∀ (s : State) (p : BitVec 6) (l : Bool) (rest : List Input), s.Inv → s.inFlight = some (.getPin p) →
    s.inputs = .gpio s.epoch true l :: rest →
    ∃ t g, step s = .next t ∧ t.pins = s.pins ∧ t.actions = s.actions ++ [⟨.getPin p, .level g⟩] ∧
      (s.setDone = true → s.foreignDrive = false → pinLevel p.toNat s.pins = some g) ∧
      (s.setDone = false ∨ s.foreignDrive = true → g = l) ∧
      ((t.inFlight = none ∧ t.ending = none ∧ t.line = g ∧ t.lvalid = true) ∨
        (s.seq = .rpGet ∧ t.inFlight = some .closeCtl ∧ t.ending = some ⟨.done, g, true⟩ ∧ t.line = s.line ∧
          t.lvalid = s.lvalid))

/-- R59, R110: FANCTL never configures, drives or reads any pin but the running command's; and no step but reset and an answered
`Cfg` or `Set` of that pin changes what is known of any line. -/
def Obligations.OnlyTheConfiguredPinIsReached : Prop :=
  ∀ s t : State, s.Inv → step s = .next t →
    (∃ new, t.actions = s.actions ++ new ∧ ∀ e ∈ new, ∀ p, e.action.pin? = some p → p = s.lPin) ∧
    (s.inputs.head? ≠ some .reset →
      (t.pins = s.pins ∨ s.inFlight = some (.cfgPin s.lPin) ∨ ∃ v, s.inFlight = some (.setPin s.lPin v)) ∧
      ∀ r, r ≠ s.lPin.toNat → pinLevel r t.pins = pinLevel r s.pins)

/-- R9, R211, R230, R233: no step takes back an observed action or a trace record; and it adds no record at L_VERB 0 and no
SETLOG at L_VERB 1. The steps include reset: that the observation and the trace stay as they are there is the model's choice (DESIGN
CHOICE, log entry 12). -/
def Obligations.ObservationOnlyGrows : Prop :=
  ∀ s t : State, step s = .next t → s.actions <+: t.actions ∧
    ∃ new, t.trace = s.trace ++ new ∧ (s.lVerb = 0 → new = []) ∧ (s.lVerb = 1 → ∀ p v, TraceRec.setLog p v ∉ new)

/-! ### Ending a command -/

/-- R127: the STOP step: `Close()` if the handle is held, then STATE is STOPPED, and everything else keeps its value: PERC, SLEEP,
USEC, TEMP, LINE, LVALID and the line itself. With the handle held it takes two machine steps, issue and answer of the `Close()`
(log entry 11). -/
def Obligations.StopStepEndsTheCommand : Prop :=
  ∀ (pin freq : BitVec 6) (arg : BitVec 16) (s : State) (rest : List Input),
    s.state = .busy → s.stopReq = true → s.inFlight = none → s.inputs = .sequencer :: rest →
    step s = exec (.stop pin freq arg) s ∧
    (s.held = false → exec (.stop pin freq arg) s = .next { s with
      state := .stopped, seq := .idle, stopReq := false, inputs := rest }) ∧
    (s.held = true → exec (.stop pin freq arg) s = .next { s with
      inFlight := some .closeCtl, ending := some ⟨.stopped, s.line, s.lvalid⟩, inputs := rest }) ∧
    ∀ (ok l : Bool) (rest' : List Input), s.held = true → rest = .gpio s.epoch ok l :: rest' →
      steps 2 s = .next { s with
        held := false, state := .stopped, seq := .idle, stopReq := false, ending := none
        actions := s.actions ++ [⟨.closeCtl, .ok⟩], inputs := rest' }

/-- R106, R120, R127, R128, R210: `Close()` answered, whatever the answer says, for it never fails: HELD is 0, and the terminating
step's last writes are made: DONE, STOPPED, or FAULT with its code, SEQ at `IDLE`, STOPREQ 0, LINE and LVALID as the step left them.
Everything else keeps its value, the line among it. (That `Close()` is answered in a machine step of its own: log entry 11.) -/
def Obligations.CloseEndsTheCommand : Prop :=
  ∀ (pin freq : BitVec 6) (arg : BitVec 16) (i : Instr) (s : State) (e : Ending) (ok l : Bool) (rest : List Input),
    i ∈ [Instr.fixed pin freq arg, .hyst pin freq arg, .thermo pin freq arg, .pulse pin freq arg, .rpin pin freq arg,
      .stop pin freq arg] →
    s.inFlight = some .closeCtl → s.ending = some e → s.inputs = .gpio s.epoch ok l :: rest →
    exec i s = .next { s with
      held := false
      line := e.line
      lvalid := e.lvalid
      state := match e.kind with | .done => .done | .stopped => .stopped | .fault _ => .fault
      fcode := match e.kind with | .fault code => code | _ => s.fcode
      seq := .idle
      stopReq := false
      wrem := match e.kind with | .fault _ => 0 | _ => s.wrem
      inFlight := none
      ending := none
      actions := s.actions ++ [⟨.closeCtl, .ok⟩]
      inputs := rest }

/-- R24, R106, R120: a step that ends a command with the handle held, and is not reset, closes it as its last action. -/
def Obligations.EveryExitReleasesTheHandle : Prop :=
  ∀ s t : State, s.Inv → s.state = .busy → s.held = true → s.inputs.head? ≠ some .reset → step s = .next t →
    t.state ≠ .busy → t.held = false ∧ t.actions.getLast? = some ⟨.closeCtl, .ok⟩

/-! ### The prologue -/

/-- R102, R129: `Open()` answered ok: HELD is set and `Cfg` is next, but for RPIN, whose `Get` is next. -/
def Obligations.OpenAcquiresTheHandle : Prop :=
  ∀ (pin freq : BitVec 6) (arg : BitVec 16) (i : Instr) (s : State) (l : Bool) (rest : List Input),
    i ∈ [Instr.fixed pin freq arg, .hyst pin freq arg, .thermo pin freq arg, .pulse pin freq arg, .rpin pin freq arg] →
    s.inFlight = some .openCtl → s.seq = .pOpen → s.inputs = .gpio s.epoch true l :: rest →
    exec i s = .next { s with
      held := true
      inFlight := none
      seq := if i = .rpin pin freq arg then .rpGet else .pCfg
      actions := s.actions ++ [⟨.openCtl, .ok⟩]
      inputs := rest }

/-- R103, R129, R141, R150, R160, R171: `Cfg(p)` answered ok: the command's body begins. That the line's level is then unknown to
the model is its choice (U1; log entry 7). -/
def Obligations.CfgStartsTheBody : Prop :=
  ∀ (pin freq : BitVec 6) (arg : BitVec 16) (i : Instr) (s : State) (l : Bool) (rest : List Input),
    i ∈ [Instr.fixed pin freq arg, .hyst pin freq arg, .thermo pin freq arg, .pulse pin freq arg] →
    s.inFlight = some (.cfgPin s.lPin) → s.seq = .pCfg → s.inputs = .gpio s.epoch true l :: rest →
    exec i s = .next { s with
      inFlight := none
      pins := pinForget s.lPin.toNat s.pins
      seq := match i with
        | .fixed _ _ _ => if s.lArg.toNat = 0 ∨ s.lArg.toNat = 100 then .fxSet else .puSetH
        | .hyst _ _ _ => if s.sbound = true then .hyTread else .hyBind
        | .thermo _ _ _ => branchLabel s.sleep s.perc
        | _ => if s.lArg.toNat = 0 then .puSetL else .puSetH
      actions := s.actions ++ [⟨.cfgPin s.lPin, .ok⟩]
      inputs := rest }

/-- R100, R108: `Bind()` answered ok, in HYST, THERMO and RTEMP: SBOUND is set, and the temperature read is next. Everything else
keeps its value. -/
def Obligations.BindMarksTheSensor : Prop :=
  ∀ (pin freq : BitVec 6) (arg : BitVec 16) (i : Instr) (l l' : Label) (s : State) (t : Word) (rest : List Input),
    (i, l, l') ∈ [(Instr.hyst pin freq arg, Label.hyBind, Label.hyTread), (.thermo pin freq arg, .thBind, .thTread),
      (.rtemp pin freq arg, .rtBind, .rtTread)] →
    s.inFlight = some .bindSensor → s.seq = l → s.inputs = .sensor s.epoch true t :: rest →
    exec i s = .next { s with
      sbound := true
      inFlight := none
      seq := l'
      actions := s.actions ++ [⟨.bindSensor, .ok⟩]
      inputs := rest }

/-! ### The pulse, PULSE and FIXED -/

/-- R140, R144: the period law: `t_high + t_low` is `100 * (10000 div f)`; it is `1,000,000 / f` exactly for the eleven `f` that
divide 10000; for every other `f` it falls short by `(1,000,000 mod (100 f)) / f`, less than 100 microseconds. -/
def Obligations.PulsePeriodLaw : Prop :=
  ∀ d f : Nat, d ≤ 100 → 1 ≤ f → f ≤ 50 →
    tHigh d f + tLow d f = 100 * (10000 / f) ∧
    ((tHigh d f + tLow d f) * f = 1000000 ↔ f ∈ [1, 2, 4, 5, 8, 10, 16, 20, 25, 40, 50]) ∧
    1000000 = (tHigh d f + tLow d f) * f + 1000000 % (100 * f) ∧ 1000000 % (100 * f) < 100 * f ∧
    (f ∣ 10000 ↔ f ∈ [1, 2, 4, 5, 8, 10, 16, 20, 25, 40, 50])

/-- R129, R140, R141, R142, R143: PULSE, undisturbed, from its entry label: Open, Cfg, the pulse with its exact waits, Close, DONE;
the line ends low, exactly `100 * (10000 div f)` ticks have passed, the trace has one SETLOG for each `Set` when asked for, and
nothing else has changed: PERC, SLEEP, USEC, TEMP and SBOUND are as before. For every duty from 0 to 100. -/
def Obligations.PulseMakesExactlyOnePeriod : Prop :=
  ∀ (s : State) (rest : List Input), s.Inv → s.atLabel 6 .pOpen →
    s.inputs = gpioOk s.epoch false ++ gpioOk s.epoch false ++ pulseInputs s.epoch s.lArg.toNat s.lFreq.toNat ++
      closeOk s.epoch ++ rest →
    steps (5 + (pulseInputs s.epoch s.lArg.toNat s.lFreq.toNat).length) s = .next { s with
      state := .done
      seq := .idle
      held := false
      line := false
      lvalid := true
      setDone := true
      pins := pinPut s.lPin.toNat false (pinForget s.lPin.toNat s.pins)
      ticks := s.ticks + 100 * (10000 / s.lFreq.toNat)
      trace := s.trace ++ s.pulseLogs s.lArg.toNat
      actions := s.actions ++ [⟨.openCtl, .ok⟩, ⟨.cfgPin s.lPin, .ok⟩] ++
        pulseEvents s.lPin s.lArg.toNat s.lFreq.toNat ++ [⟨.closeCtl, .ok⟩]
      inputs := rest }

/-- R128, R142: PULSE's last step: the tick that ends the low wait issues the `Close()` of normal completion, which
`CloseEndsTheCommand` follows (log entry 11). That it does so with a STOP pending too is the model's reading of R107 and R213
(DEDUCED, log entry 3). -/
def Obligations.PulseCompletesWithItsLowWait : Prop :=
  ∀ (pin freq : BitVec 6) (arg : BitVec 16) (s : State) (n : Nat) (rest : List Input), s.Inv →
    s.inFlight = some (.wait n) → s.seq = .puWaitL → s.wrem = 1 → s.inputs = .tick :: rest →
    exec (.pulse pin freq arg) s = .next { s with
      wrem := 0
      ticks := s.ticks + 1
      inFlight := some .closeCtl
      ending := some ⟨.done, s.line, s.lvalid⟩
      actions := s.actions ++ [⟨.wait ((100 - s.lArg.toNat) * (10000 / s.lFreq.toNat)), .completed⟩]
      inputs := rest }

/-- R128, R150: FIXED's one `Set` for duty 0 or 100: the line is driven to its level, and the `Close()` of normal completion is
issued, which `CloseEndsTheCommand` follows; LINE and LVALID take the level then (log entry 11). -/
def Obligations.FixedBoundarySetCompletes : Prop :=
  ∀ (pin freq : BitVec 6) (arg : BitVec 16) (s : State) (v l : Bool) (rest : List Input), s.Inv →
    v = decide (s.lArg.toNat = 100) → s.inFlight = some (.setPin s.lPin v) → s.seq = .fxSet →
    s.inputs = .gpio s.epoch true l :: rest →
    exec (.fixed pin freq arg) s = .next { s with
      setDone := true
      pins := pinPut s.lPin.toNat v s.pins
      inFlight := some .closeCtl
      ending := some ⟨.done, v, true⟩
      trace := s.trace ++ s.setLogs s.lPin v
      actions := s.actions ++ [⟨.setPin s.lPin v, .ok⟩]
      inputs := rest }

/-- R151: FIXED with duty 0 or 100, undisturbed: Open, Cfg, exactly one `Set`, Close, DONE. No `Get`, no `Wait`, no pulse; the line
keeps the level written, and nothing else has changed. -/
def Obligations.FixedBoundaryDutiesSetOnce : Prop :=
  ∀ (s : State) (l₁ l₂ l₃ v : Bool) (rest : List Input), s.Inv → s.atLabel 1 .pOpen →
    s.lArg.toNat = 0 ∨ s.lArg.toNat = 100 → v = decide (s.lArg.toNat = 100) →
    s.inputs = gpioOk s.epoch l₁ ++ gpioOk s.epoch l₂ ++ gpioOk s.epoch l₃ ++ closeOk s.epoch ++ rest →
    steps 7 s = .next { s with
      state := .done
      seq := .idle
      held := false
      line := v
      lvalid := true
      setDone := true
      pins := pinPut s.lPin.toNat v (pinForget s.lPin.toNat s.pins)
      trace := s.trace ++ s.setLogs s.lPin v
      actions := s.actions ++ [⟨.openCtl, .ok⟩, ⟨.cfgPin s.lPin, .ok⟩, ⟨.setPin s.lPin v, .ok⟩, ⟨.closeCtl, .ok⟩]
      inputs := rest }

/-- R141, R150, R152, R231: FIXED with duty 1 to 99, undisturbed: one whole pulse leads from `PU_SETH` back to `PU_SETH`, still
BUSY. The line ends low, the trace has one SETLOG for each `Set` when asked for, and nothing else has changed: TEMP, SBOUND, PERC,
SLEEP and USEC are as before. -/
def Obligations.FixedPulsesWithoutEnd : Prop :=
  ∀ (s : State) (rest : List Input), s.Inv → s.atLabel 1 .puSetH →
    s.inputs = pulseInputs s.epoch s.lArg.toNat s.lFreq.toNat ++ rest →
    1 ≤ s.lArg.toNat → s.lArg.toNat ≤ 99 →
    ∃ t, steps (pulseInputs s.epoch s.lArg.toNat s.lFreq.toNat).length s = .next t ∧ t.Inv ∧
      t = { s with
        line := false
        lvalid := true
        setDone := true
        pins := pinPut s.lPin.toNat false s.pins
        ticks := s.ticks + 100 * (10000 / s.lFreq.toNat)
        trace := s.trace ++ s.pulseLogs s.lArg.toNat
        actions := s.actions ++ pulseEvents s.lPin s.lArg.toNat s.lFreq.toNat
        inputs := rest }

/-! ### HYST -/

/-- R101, R160, R164: HYST's reading: TEMP takes it; a filtered sentinel skips the tick, any other reading is followed by the
pin read (R162). -/
def Obligations.HystReadsOrSkips : Prop :=
  ∀ (pin freq : BitVec 6) (arg : BitVec 16) (s : State) (ok : Bool) (t : Word) (rest : List Input),
    s.inFlight = some .readTemp → s.seq = .hyTread → s.inputs = .sensor s.epoch ok t :: rest →
    exec (.hyst pin freq arg) s = .next { s with
      temp := t
      inFlight := none
      seq := if s.lSfilt = true ∧ t = 0xFFFFFC19 then .hyWait else .hyGet
      trace := s.trace ++ (if s.lSfilt = true ∧ t = 0xFFFFFC19 then s.decisions t .skip 0 false else [])
      actions := s.actions ++ [⟨.readTemp, .reading t⟩]
      inputs := rest }

/-- R163, R165: HYST's decision on the level read back, in exact milli-degrees: switch on above `1000*T`, off below
`1000*T - 5000`, nothing in the band or where the line already holds the level. -/
def Obligations.HystDecidesOnTheBand : Prop :=
  ∀ (pin freq : BitVec 6) (arg : BitVec 16) (s : State) (l g : Bool) (rest : List Input),
    s.inFlight = some (.getPin s.lPin) → s.seq = .hyGet → s.inputs = .gpio s.epoch true l :: rest →
    g = (if s.setDone = true ∧ s.foreignDrive = false then (pinLevel s.lPin.toNat s.pins).getD l else l) →
    exec (.hyst pin freq arg) s = .next { s with
      line := g
      lvalid := true
      inFlight := none
      seq :=
        if (1000 * s.lArg.toInt < s.temp.toInt ∧ g = false) ∨ (s.temp.toInt < 1000 * s.lArg.toInt - 5000 ∧ g = true)
        then .hySet else .hyWait
      trace := s.trace ++
        (if (1000 * s.lArg.toInt < s.temp.toInt ∧ g = false) ∨ (s.temp.toInt < 1000 * s.lArg.toInt - 5000 ∧ g = true)
          then [] else s.decisions s.temp .noChange 0 false)
      actions := s.actions ++ [⟨.getPin s.lPin, .level g⟩]
      inputs := rest }

/-- R160, R163, R232: HYST's switch: the line goes on above the upper threshold and off otherwise, SETLOG before DECIDE, then
the wait. -/
def Obligations.HystSwitchesTheLine : Prop :=
  ∀ (pin freq : BitVec 6) (arg : BitVec 16) (s : State) (l v : Bool) (rest : List Input),
    s.inFlight = some (.setPin s.lPin v) → s.seq = .hySet → s.inputs = .gpio s.epoch true l :: rest →
    v = decide (1000 * s.lArg.toInt < s.temp.toInt) →
    exec (.hyst pin freq arg) s = .next { s with
      line := v
      lvalid := true
      setDone := true
      pins := pinPut s.lPin.toNat v s.pins
      inFlight := none
      seq := .hyWait
      trace := s.trace ++ s.setLogs s.lPin v ++ s.decisions s.temp (if v = true then .on else .off) 0 false
      actions := s.actions ++ [⟨.setPin s.lPin v, .ok⟩]
      inputs := rest }

/-- R160, R161: HYST's wait, whatever the tick before it decided: its last tick leads to the next tick's temperature read, binding
the sensor first if it is not bound (R108). Everything else keeps its value. That the last tick completes the wait with a STOP
pending too is the model's reading of R107 and R213 (DEDUCED, log entry 3). -/
def Obligations.HystWaitStartsTheNextTick : Prop :=
  ∀ (pin freq : BitVec 6) (arg : BitVec 16) (s : State) (n : Nat) (rest : List Input),
    s.inFlight = some (.wait n) → s.seq = .hyWait → s.wrem = 1 → s.inputs = .tick :: rest →
    exec (.hyst pin freq arg) s = .next { s with
      wrem := 0
      ticks := s.ticks + 1
      inFlight := none
      seq := if s.sbound = true then .hyTread else .hyBind
      actions := s.actions ++ [⟨.wait 1000000, .completed⟩]
      inputs := rest }

/-- R161, R162, R166: inside the band, once a `Set` has succeeded and nothing else drives the line, a whole HYST tick performs no
`Set` and leaves the line: from the temperature read to the end of the wait. Nothing else has changed but TEMP, LINE, LVALID and
the DECIDE record, when asked for. -/
def Obligations.HystBandIsIdempotent : Prop :=
  ∀ (s : State) (t : Word) (l : Bool) (rest : List Input), s.Inv → s.atLabel 2 .hyTread → s.setDone = true →
    s.foreignDrive = false → (s.lSfilt = true → t ≠ 0xFFFFFC19) →
    1000 * s.lArg.toInt - 5000 ≤ t.toInt → t.toInt ≤ 1000 * s.lArg.toInt →
    s.inputs = sensorOk s.epoch t ++ gpioOk s.epoch l ++ waitFor 1000000 ++ rest →
    ∃ g, pinLevel s.lPin.toNat s.pins = some g ∧
      steps (sensorOk s.epoch t ++ gpioOk s.epoch l ++ waitFor 1000000).length s = .next { s with
        temp := t
        line := g
        lvalid := true
        ticks := s.ticks + 1000000
        trace := s.trace ++ s.decisions t .noChange 0 false
        actions := s.actions ++
          [⟨.readTemp, .reading t⟩, ⟨.getPin s.lPin, .level g⟩, ⟨.wait 1000000, .completed⟩]
        inputs := rest }

/-! ### THERMO -/

/-- R175 to R180: THERMO's evaluation: TEMP takes the reading, SLEEP and PERC follow R176 and R178 (nothing on a filtered
sentinel, R179), USEC is 0, DECIDE carries the values after it, and the next iteration starts in the branch of R171. -/
def Obligations.ThermoEvaluatesTheReading : Prop :=
  ∀ (pin freq : BitVec 6) (arg : BitVec 16) (s : State) (ok : Bool) (t : Word) (rest : List Input)
    (d : Decision) (sleep' : Bool) (perc' : BitVec 7),
    s.inFlight = some .readTemp → s.seq = .thTread → s.inputs = .sensor s.epoch ok t :: rest →
    (d, sleep', perc') =
      (if s.lSfilt = true ∧ t = 0xFFFFFC19 then (.skip, s.sleep, s.perc)
      else if t.toInt < 1000 * s.lArg.toInt - 5000 ∧ s.sleep = false then (.sleepEnter, true, s.perc)
      else if 1000 * s.lArg.toInt ≤ t.toInt ∧ s.sleep = true then (.wake, false, s.perc)
      else if s.sleep = true then (.noChange, true, s.perc)
      else if s.lArg.toInt < roundDeg t.toInt ∧ s.perc.toNat < 100 then (.inc, false, s.perc + 1)
      else if roundDeg t.toInt < s.lArg.toInt ∧ 0 < s.perc.toNat then (.dec, false, s.perc - 1)
      else (.hold, false, s.perc)) →
    exec (.thermo pin freq arg) s = .next { s with
      temp := t
      sleep := sleep'
      perc := perc'
      usec := 0
      inFlight := none
      seq := branchLabel sleep' perc'
      trace := s.trace ++ s.decisions t d perc' sleep'
      actions := s.actions ++ [⟨.readTemp, .reading t⟩]
      inputs := rest }

/-- R171, R172, R173, R174, R175: a THERMO iteration ends with the last tick of its wait: USEC grows by the nominal length, and
the evaluation follows when USEC reaches 1,000,000, binding the sensor first if it is not bound; otherwise the next iteration.
That the last tick completes the wait with a STOP pending too is the model's reading of R107 and R213 (DEDUCED, log entry 3). -/
def Obligations.ThermoIterationsFillTheWindow : Prop :=
  ∀ (pin freq : BitVec 6) (arg : BitVec 16) (s : State) (m n : Nat) (rest : List Input),
    s.inFlight = some (.wait m) → s.wrem = 1 → s.inputs = .tick :: rest → s.usec.toNat < 1000000 →
    (s.seq = .thWait ∧ n = 1000000) ∨ (s.seq = .puWaitL ∧ n = 100 * (10000 / s.lFreq.toNat)) →
    exec (.thermo pin freq arg) s = .next { s with
      wrem := 0
      ticks := s.ticks + 1
      inFlight := none
      usec := BitVec.ofNat 21 (s.usec.toNat + n)
      seq :=
        if 1000000 ≤ s.usec.toNat + n then (if s.sbound = true then .thTread else .thBind) else branchLabel s.sleep s.perc
      actions := s.actions ++
        [⟨.wait (if s.seq = .thWait then 1000000 else (100 - s.perc.toNat) * (10000 / s.lFreq.toNat)), .completed⟩]
      inputs := rest }

/-- R109, R172, R174: `ensure(v)`, with `v` = 1 in the full-on branch and 0 in the sleep branch: read back, and write only if
the level differs. -/
def Obligations.EnsureWritesOnlyIfTheLevelDiffers : Prop :=
  ∀ (pin freq : BitVec 6) (arg : BitVec 16) (s : State) (l g : Bool) (rest : List Input),
    s.inputs = .gpio s.epoch true l :: rest →
    g = (if s.setDone = true ∧ s.foreignDrive = false then (pinLevel s.lPin.toNat s.pins).getD l else l) →
    (s.inFlight = some (.getPin s.lPin) → s.seq = .thGet → exec (.thermo pin freq arg) s = .next { s with
      line := g
      lvalid := true
      inFlight := none
      seq := if g = !s.sleep then .thWait else .thSet
      actions := s.actions ++ [⟨.getPin s.lPin, .level g⟩]
      inputs := rest }) ∧
    (s.inFlight = some (.setPin s.lPin (!s.sleep)) → s.seq = .thSet → exec (.thermo pin freq arg) s = .next { s with
      line := !s.sleep
      lvalid := true
      setDone := true
      pins := pinPut s.lPin.toNat (!s.sleep) s.pins
      inFlight := none
      seq := .thWait
      trace := s.trace ++ s.setLogs s.lPin (!s.sleep)
      actions := s.actions ++ [⟨.setPin s.lPin (!s.sleep), .ok⟩]
      inputs := rest })

/-- R173, R175, R182, R231: a window of pulses, undisturbed: exactly `N(f) = ceil(1,000,000 / (100*q))` pulses lead from USEC = 0 to
the evaluation, and USEC and the ticks have grown by `N(f) * 100 * q`. The line ends low, the trace has one SETLOG for each `Set`
when asked for, and nothing else has changed: TEMP, SBOUND, PERC and SLEEP are as before. -/
def Obligations.ThermoWindowHasNPulses : Prop :=
  ∀ (s : State) (rest : List Input) (n : Nat), s.Inv → s.lOp = 3 → s.sleep = false → s.perc.toNat < 100 → s.usec = 0 →
    s.atLabel 3 (branchLabel false s.perc) →
    n = (1000000 + 100 * (10000 / s.lFreq.toNat) - 1) / (100 * (10000 / s.lFreq.toNat)) →
    s.inputs = (List.replicate n (pulseInputs s.epoch s.perc.toNat s.lFreq.toNat)).flatten ++ rest →
    steps ((List.replicate n (pulseInputs s.epoch s.perc.toNat s.lFreq.toNat)).flatten).length s = .next { s with
      seq := if s.sbound = true then .thTread else .thBind
      line := false
      lvalid := true
      setDone := true
      pins := pinPut s.lPin.toNat false s.pins
      usec := BitVec.ofNat 21 (n * (100 * (10000 / s.lFreq.toNat)))
      ticks := s.ticks + n * (100 * (10000 / s.lFreq.toNat))
      trace := s.trace ++ (List.replicate n (s.pulseLogs s.perc.toNat)).flatten
      actions := s.actions ++ (List.replicate n (pulseEvents s.lPin s.perc.toNat s.lFreq.toNat)).flatten
      inputs := rest }

/-- R30, R178: PERC stays in 0..100; while a command runs it changes only in a THERMO evaluation, by 1. -/
def Obligations.PercMovesByOneInEvaluationsOnly : Prop :=
  ∀ s t : State, s.Inv → step s = .next t →
    t.perc.toNat ≤ 100 ∧
    (s.state = .busy → s.inputs.head? ≠ some .reset →
      t.perc = s.perc ∨
      (s.lOp = 3 ∧ s.seq = .thTread ∧ (∃ ok r, s.inputs.head? = some (.sensor s.epoch ok r)) ∧
        (t.perc.toNat = s.perc.toNat + 1 ∨ t.perc.toNat + 1 = s.perc.toNat)))

/-- R181, item 3: asleep, a running THERMO drives no line high, and stays asleep until an evaluation reads `t ≥ 1000*T`. -/
def Obligations.SleepLatchesUntilTheTarget : Prop :=
  ∀ s t : State, s.Inv → s.state = .busy → s.sleep = true → s.inputs.head? ≠ some .reset → step s = .next t →
    (∃ new, t.actions = s.actions ++ new ∧ ∀ p r, ⟨.setPin p true, r⟩ ∉ new) ∧
    (t.sleep = true ∨
      (s.seq = .thTread ∧ ∃ ok r, s.inputs.head? = some (.sensor s.epoch ok r) ∧ 1000 * s.lArg.toInt ≤ r.toInt ∧ t.perc = s.perc))

/-- R181, item 1: awake at PERC = 50, evaluations of a reading that rounds above the target raise PERC by 1 each until it is
100, and then hold it. -/
def Obligations.ThermoRampsUpToFull : Prop :=
  ∀ (n : Nat) (s : State) (t : Word), s.sleep = false → s.perc = 50 → (s.lSfilt = true → t ≠ 0xFFFFFC19) →
    1000 * s.lArg.toInt - 5000 ≤ t.toInt → s.lArg.toInt < roundDeg t.toInt →
    ((fun u => (evaluate t u).2)^[n] s).perc.toNat = min 100 (50 + n) ∧
    ((fun u => (evaluate t u).2)^[n] s).sleep = false

/-- R177: `round` is the nearest whole degree, with ties away from zero, and its range over 32-bit readings is -2,147,484 to
2,147,484. -/
def Obligations.RoundingIsNearestTiesAway : Prop :=
  (∀ t : Int, -500 ≤ 1000 * roundDeg t - t ∧ 1000 * roundDeg t - t ≤ 500 ∧
    (1000 * roundDeg t - t = 500 → 0 ≤ t) ∧ (1000 * roundDeg t - t = -500 → t < 0)) ∧
  ∀ w : Word, -2147484 ≤ roundDeg w.toInt ∧ roundDeg w.toInt ≤ 2147484

/-! ### The report commands -/

/-- R128, R190, R191: the last action of a report command. RPIN's `Get` gives the controller's draw, for no `Set` comes before it, and
the `Close()` of normal completion is issued, after whose answer LINE and LVALID report the draw (`CloseEndsTheCommand`; log entry
11). RTEMP's `TRead` completes the command at once, for no handle is held: TEMP reports the reading, the sentinel too, whatever
`L_SFILT` is. Everything else keeps its value. -/
def Obligations.ReportCommandsReport : Prop :=
  ∀ (pin freq : BitVec 6) (arg : BitVec 16) (s : State) (ok g : Bool) (t : Word) (rest : List Input), s.Inv →
    (s.inFlight = some (.getPin s.lPin) → s.seq = .rpGet → s.inputs = .gpio s.epoch true g :: rest →
      exec (.rpin pin freq arg) s = .next { s with
        inFlight := some .closeCtl
        ending := some ⟨.done, g, true⟩
        actions := s.actions ++ [⟨.getPin s.lPin, .level g⟩]
        inputs := rest }) ∧
    (s.inFlight = some .readTemp → s.seq = .rtTread → s.inputs = .sensor s.epoch ok t :: rest →
      exec (.rtemp pin freq arg) s = .next { s with
        temp := t
        inFlight := none
        state := .done
        seq := .idle
        stopReq := false
        actions := s.actions ++ [⟨.readTemp, .reading t⟩]
        inputs := rest })

/-- R191: RTEMP, undisturbed: Bind, TRead, DONE; no GPIO action, and nothing else has changed but TEMP and SBOUND. -/
def Obligations.RtempBindsAndReads : Prop :=
  ∀ (s : State) (r t : Word) (rest : List Input), s.Inv → s.atLabel 5 .rtBind →
    s.inputs = sensorOk s.epoch r ++ sensorOk s.epoch t ++ rest →
    steps 4 s = .next { s with
      temp := t
      sbound := true
      state := .done
      seq := .idle
      actions := s.actions ++ [⟨.bindSensor, .ok⟩, ⟨.readTemp, .reading t⟩]
      inputs := rest }
end

