-- ==== Sys2Proof/Laws/Codec.lean ====
section
/-! SUPPORT. The fields of a packed word, and the lanes of a word. -/

namespace Sys2Proof

/-- Every bit of a packed word. -/
theorem getLsbD_packCmd (op : BitVec 4) (pin freq : BitVec 6) (arg : BitVec 16) (i : Nat) :
    (packCmd op pin freq arg).getLsbD i =
      if i < 4 then op.getLsbD i else if i < 10 then pin.getLsbD (i - 4)
      else if i < 16 then freq.getLsbD (i - 10) else arg.getLsbD (i - 16) := by
  show BitVec.getLsbD (w := 16 + 6 + 6 + 4) (arg ++ freq ++ pin ++ op) i = _
  rw [BitVec.getLsbD_append, BitVec.getLsbD_append, BitVec.getLsbD_append]
  by_cases h1 : i < 4
  · simp [h1]
  by_cases h2 : i < 10
  · simp [h1, h2, show i - 4 < 6 by omega]
  by_cases h3 : i < 16
  · simp [h1, h2, h3, show ¬ i - 4 < 6 by omega, show i - 4 - 6 = i - 10 by omega, show i - 10 < 6 by omega]
  · simp [h1, h2, h3, show ¬ i - 4 < 6 by omega, show i - 4 - 6 = i - 10 by omega,
      show ¬ i - 10 < 6 by omega, show i - 10 - 6 = i - 16 by omega]

@[simp] theorem fieldOp_packCmd (op : BitVec 4) (pin freq : BitVec 6) (arg : BitVec 16) :
    fieldOp (packCmd op pin freq arg) = op := by
  apply BitVec.eq_of_getLsbD_eq; intro i hi
  simp [fieldOp, getLsbD_packCmd, hi]

@[simp] theorem fieldPin_packCmd (op : BitVec 4) (pin freq : BitVec 6) (arg : BitVec 16) :
    fieldPin (packCmd op pin freq arg) = pin := by
  apply BitVec.eq_of_getLsbD_eq; intro i hi
  simp [fieldPin, getLsbD_packCmd, hi, show 4 + i < 10 by omega]

@[simp] theorem fieldFreq_packCmd (op : BitVec 4) (pin freq : BitVec 6) (arg : BitVec 16) :
    fieldFreq (packCmd op pin freq arg) = freq := by
  apply BitVec.eq_of_getLsbD_eq; intro i hi
  simp [fieldFreq, getLsbD_packCmd, hi, show 10 + i < 16 by omega, show ¬ 10 + i < 4 by omega]

@[simp] theorem fieldArg_packCmd (op : BitVec 4) (pin freq : BitVec 6) (arg : BitVec 16) :
    fieldArg (packCmd op pin freq arg) = arg := by
  apply BitVec.eq_of_getLsbD_eq; intro i hi
  simp [fieldArg, getLsbD_packCmd, hi, show ¬ 16 + i < 4 by omega, show ¬ 16 + i < 10 by omega]

/-- A word is its four fields packed. -/
theorem packCmd_fields (w : Word) : packCmd (fieldOp w) (fieldPin w) (fieldFreq w) (fieldArg w) = w := by
  apply BitVec.eq_of_getLsbD_eq; intro i hi
  rw [getLsbD_packCmd]
  by_cases h1 : i < 4
  · simp [h1, fieldOp]
  by_cases h2 : i < 10
  · simp [h1, h2, fieldPin, show i - 4 < 6 by omega, show 4 + (i - 4) = i by omega]
  by_cases h3 : i < 16
  · simp [h1, h2, h3, fieldFreq, show i - 10 < 6 by omega, show 10 + (i - 10) = i by omega]
  · simp [h1, h2, h3, fieldArg, show i - 16 < 16 by omega, show 16 + (i - 16) = i by omega]

/-- The lanes of a word make up the word again. -/
theorem ofLanes_lanes (w : Word) : ofLanes (lane 0 w) (lane 1 w) (lane 2 w) (lane 3 w) = w := by
  apply BitVec.eq_of_getLsbD_eq; intro i hi
  show BitVec.getLsbD (w := 8 + 8 + 8 + 8) (lane 3 w ++ lane 2 w ++ lane 1 w ++ lane 0 w) i = _
  rw [BitVec.getLsbD_append, BitVec.getLsbD_append, BitVec.getLsbD_append]
  by_cases h1 : i < 8
  · simp [h1, lane]
  by_cases h2 : i < 16
  · simp [h1, lane, show i - 8 < 8 by omega, show 8 + (i - 8) = i by omega]
  by_cases h3 : i < 24
  · simp [h1, lane, show ¬ i - 8 < 8 by omega, show i - 8 - 8 = i - 16 by omega, show i - 16 < 8 by omega,
      show 16 + (i - 16) = i by omega]
  · simp [h1, lane, show ¬ i - 8 < 8 by omega, show i - 8 - 8 = i - 16 by omega, show ¬ i - 16 < 8 by omega,
      show i - 24 < 8 by omega,
      show 24 + (i - 24) = i by omega, show i - 16 - 8 = i - 24 by omega]

/-- Decoding the lanes of a word reads that word and leaves what follows. -/
theorem decode_lanes (w : Word) (rest : List Byte) : decode (lanes w ++ rest) = .ok (decodeWord w, rest) := by
  simp [decode, lanes, ofLanes_lanes]

end Sys2Proof
end

