-- ==== Sys2Proof/Laws/State.lean ====
section
/-! SUPPORT. One lemma per field for each of the small updates the operations are made of. -/

namespace Sys2Proof.Machine

/-! `popInput` -/
@[simp] theorem State.popInput_cmdLat (s : State) : (s.popInput).cmdLat = s.cmdLat := rfl
@[simp] theorem State.popInput_state (s : State) : (s.popInput).state = s.state := rfl
@[simp] theorem State.popInput_held (s : State) : (s.popInput).held = s.held := rfl
@[simp] theorem State.popInput_sbound (s : State) : (s.popInput).sbound = s.sbound := rfl
@[simp] theorem State.popInput_line (s : State) : (s.popInput).line = s.line := rfl
@[simp] theorem State.popInput_lvalid (s : State) : (s.popInput).lvalid = s.lvalid := rfl
@[simp] theorem State.popInput_sleep (s : State) : (s.popInput).sleep = s.sleep := rfl
@[simp] theorem State.popInput_fcode (s : State) : (s.popInput).fcode = s.fcode := rfl
@[simp] theorem State.popInput_rej (s : State) : (s.popInput).rej = s.rej := rfl
@[simp] theorem State.popInput_perc (s : State) : (s.popInput).perc = s.perc := rfl
@[simp] theorem State.popInput_verb (s : State) : (s.popInput).verb = s.verb := rfl
@[simp] theorem State.popInput_sfilt (s : State) : (s.popInput).sfilt = s.sfilt := rfl
@[simp] theorem State.popInput_temp (s : State) : (s.popInput).temp = s.temp := rfl
@[simp] theorem State.popInput_usec (s : State) : (s.popInput).usec = s.usec := rfl
@[simp] theorem State.popInput_seq (s : State) : (s.popInput).seq = s.seq := rfl
@[simp] theorem State.popInput_lOp (s : State) : (s.popInput).lOp = s.lOp := rfl
@[simp] theorem State.popInput_lPin (s : State) : (s.popInput).lPin = s.lPin := rfl
@[simp] theorem State.popInput_lFreq (s : State) : (s.popInput).lFreq = s.lFreq := rfl
@[simp] theorem State.popInput_lArg (s : State) : (s.popInput).lArg = s.lArg := rfl
@[simp] theorem State.popInput_lVerb (s : State) : (s.popInput).lVerb = s.lVerb := rfl
@[simp] theorem State.popInput_lSfilt (s : State) : (s.popInput).lSfilt = s.lSfilt := rfl
@[simp] theorem State.popInput_wrem (s : State) : (s.popInput).wrem = s.wrem := rfl
@[simp] theorem State.popInput_stopReq (s : State) : (s.popInput).stopReq = s.stopReq := rfl
@[simp] theorem State.popInput_inFlight (s : State) : (s.popInput).inFlight = s.inFlight := rfl
@[simp] theorem State.popInput_ending (s : State) : (s.popInput).ending = s.ending := rfl
@[simp] theorem State.popInput_epoch (s : State) : (s.popInput).epoch = s.epoch := rfl
@[simp] theorem State.popInput_setDone (s : State) : (s.popInput).setDone = s.setDone := rfl
@[simp] theorem State.popInput_pins (s : State) : (s.popInput).pins = s.pins := rfl
@[simp] theorem State.popInput_foreignDrive (s : State) : (s.popInput).foreignDrive = s.foreignDrive := rfl
@[simp] theorem State.popInput_bus (s : State) : (s.popInput).bus = s.bus := rfl
@[simp] theorem State.popInput_ticks (s : State) : (s.popInput).ticks = s.ticks := rfl
@[simp] theorem State.popInput_trace (s : State) : (s.popInput).trace = s.trace := rfl
@[simp] theorem State.popInput_actions (s : State) : (s.popInput).actions = s.actions := rfl
@[simp] theorem State.popInput_inputs (s : State) : (s.popInput).inputs = s.inputs.tail := rfl

/-! `record` -/
@[simp] theorem State.record_cmdLat (s : State) (a : Action) (r : Response) : (s.record a r).cmdLat = s.cmdLat := rfl
@[simp] theorem State.record_state (s : State) (a : Action) (r : Response) : (s.record a r).state = s.state := rfl
@[simp] theorem State.record_held (s : State) (a : Action) (r : Response) : (s.record a r).held = s.held := rfl
@[simp] theorem State.record_sbound (s : State) (a : Action) (r : Response) : (s.record a r).sbound = s.sbound := rfl
@[simp] theorem State.record_line (s : State) (a : Action) (r : Response) : (s.record a r).line = s.line := rfl
@[simp] theorem State.record_lvalid (s : State) (a : Action) (r : Response) : (s.record a r).lvalid = s.lvalid := rfl
@[simp] theorem State.record_sleep (s : State) (a : Action) (r : Response) : (s.record a r).sleep = s.sleep := rfl
@[simp] theorem State.record_fcode (s : State) (a : Action) (r : Response) : (s.record a r).fcode = s.fcode := rfl
@[simp] theorem State.record_rej (s : State) (a : Action) (r : Response) : (s.record a r).rej = s.rej := rfl
@[simp] theorem State.record_perc (s : State) (a : Action) (r : Response) : (s.record a r).perc = s.perc := rfl
@[simp] theorem State.record_verb (s : State) (a : Action) (r : Response) : (s.record a r).verb = s.verb := rfl
@[simp] theorem State.record_sfilt (s : State) (a : Action) (r : Response) : (s.record a r).sfilt = s.sfilt := rfl
@[simp] theorem State.record_temp (s : State) (a : Action) (r : Response) : (s.record a r).temp = s.temp := rfl
@[simp] theorem State.record_usec (s : State) (a : Action) (r : Response) : (s.record a r).usec = s.usec := rfl
@[simp] theorem State.record_seq (s : State) (a : Action) (r : Response) : (s.record a r).seq = s.seq := rfl
@[simp] theorem State.record_lOp (s : State) (a : Action) (r : Response) : (s.record a r).lOp = s.lOp := rfl
@[simp] theorem State.record_lPin (s : State) (a : Action) (r : Response) : (s.record a r).lPin = s.lPin := rfl
@[simp] theorem State.record_lFreq (s : State) (a : Action) (r : Response) : (s.record a r).lFreq = s.lFreq := rfl
@[simp] theorem State.record_lArg (s : State) (a : Action) (r : Response) : (s.record a r).lArg = s.lArg := rfl
@[simp] theorem State.record_lVerb (s : State) (a : Action) (r : Response) : (s.record a r).lVerb = s.lVerb := rfl
@[simp] theorem State.record_lSfilt (s : State) (a : Action) (r : Response) : (s.record a r).lSfilt = s.lSfilt := rfl
@[simp] theorem State.record_wrem (s : State) (a : Action) (r : Response) : (s.record a r).wrem = s.wrem := rfl
@[simp] theorem State.record_stopReq (s : State) (a : Action) (r : Response) : (s.record a r).stopReq = s.stopReq := rfl
@[simp] theorem State.record_inFlight (s : State) (a : Action) (r : Response) : (s.record a r).inFlight = s.inFlight := rfl
@[simp] theorem State.record_ending (s : State) (a : Action) (r : Response) : (s.record a r).ending = s.ending := rfl
@[simp] theorem State.record_epoch (s : State) (a : Action) (r : Response) : (s.record a r).epoch = s.epoch := rfl
@[simp] theorem State.record_setDone (s : State) (a : Action) (r : Response) : (s.record a r).setDone = s.setDone := rfl
@[simp] theorem State.record_pins (s : State) (a : Action) (r : Response) : (s.record a r).pins = s.pins := rfl
@[simp] theorem State.record_foreignDrive (s : State) (a : Action) (r : Response) : (s.record a r).foreignDrive = s.foreignDrive := rfl
@[simp] theorem State.record_bus (s : State) (a : Action) (r : Response) : (s.record a r).bus = s.bus := rfl
@[simp] theorem State.record_ticks (s : State) (a : Action) (r : Response) : (s.record a r).ticks = s.ticks := rfl
@[simp] theorem State.record_trace (s : State) (a : Action) (r : Response) : (s.record a r).trace = s.trace := rfl
@[simp] theorem State.record_actions (s : State) (a : Action) (r : Response) : (s.record a r).actions = s.actions ++ [⟨a, r⟩] := rfl
@[simp] theorem State.record_inputs (s : State) (a : Action) (r : Response) : (s.record a r).inputs = s.inputs := rfl

/-! `emit` -/
@[simp] theorem State.emit_cmdLat (s : State) (r : TraceRec) : (s.emit r).cmdLat = s.cmdLat := rfl
@[simp] theorem State.emit_state (s : State) (r : TraceRec) : (s.emit r).state = s.state := rfl
@[simp] theorem State.emit_held (s : State) (r : TraceRec) : (s.emit r).held = s.held := rfl
@[simp] theorem State.emit_sbound (s : State) (r : TraceRec) : (s.emit r).sbound = s.sbound := rfl
@[simp] theorem State.emit_line (s : State) (r : TraceRec) : (s.emit r).line = s.line := rfl
@[simp] theorem State.emit_lvalid (s : State) (r : TraceRec) : (s.emit r).lvalid = s.lvalid := rfl
@[simp] theorem State.emit_sleep (s : State) (r : TraceRec) : (s.emit r).sleep = s.sleep := rfl
@[simp] theorem State.emit_fcode (s : State) (r : TraceRec) : (s.emit r).fcode = s.fcode := rfl
@[simp] theorem State.emit_rej (s : State) (r : TraceRec) : (s.emit r).rej = s.rej := rfl
@[simp] theorem State.emit_perc (s : State) (r : TraceRec) : (s.emit r).perc = s.perc := rfl
@[simp] theorem State.emit_verb (s : State) (r : TraceRec) : (s.emit r).verb = s.verb := rfl
@[simp] theorem State.emit_sfilt (s : State) (r : TraceRec) : (s.emit r).sfilt = s.sfilt := rfl
@[simp] theorem State.emit_temp (s : State) (r : TraceRec) : (s.emit r).temp = s.temp := rfl
@[simp] theorem State.emit_usec (s : State) (r : TraceRec) : (s.emit r).usec = s.usec := rfl
@[simp] theorem State.emit_seq (s : State) (r : TraceRec) : (s.emit r).seq = s.seq := rfl
@[simp] theorem State.emit_lOp (s : State) (r : TraceRec) : (s.emit r).lOp = s.lOp := rfl
@[simp] theorem State.emit_lPin (s : State) (r : TraceRec) : (s.emit r).lPin = s.lPin := rfl
@[simp] theorem State.emit_lFreq (s : State) (r : TraceRec) : (s.emit r).lFreq = s.lFreq := rfl
@[simp] theorem State.emit_lArg (s : State) (r : TraceRec) : (s.emit r).lArg = s.lArg := rfl
@[simp] theorem State.emit_lVerb (s : State) (r : TraceRec) : (s.emit r).lVerb = s.lVerb := rfl
@[simp] theorem State.emit_lSfilt (s : State) (r : TraceRec) : (s.emit r).lSfilt = s.lSfilt := rfl
@[simp] theorem State.emit_wrem (s : State) (r : TraceRec) : (s.emit r).wrem = s.wrem := rfl
@[simp] theorem State.emit_stopReq (s : State) (r : TraceRec) : (s.emit r).stopReq = s.stopReq := rfl
@[simp] theorem State.emit_inFlight (s : State) (r : TraceRec) : (s.emit r).inFlight = s.inFlight := rfl
@[simp] theorem State.emit_ending (s : State) (r : TraceRec) : (s.emit r).ending = s.ending := rfl
@[simp] theorem State.emit_epoch (s : State) (r : TraceRec) : (s.emit r).epoch = s.epoch := rfl
@[simp] theorem State.emit_setDone (s : State) (r : TraceRec) : (s.emit r).setDone = s.setDone := rfl
@[simp] theorem State.emit_pins (s : State) (r : TraceRec) : (s.emit r).pins = s.pins := rfl
@[simp] theorem State.emit_foreignDrive (s : State) (r : TraceRec) : (s.emit r).foreignDrive = s.foreignDrive := rfl
@[simp] theorem State.emit_bus (s : State) (r : TraceRec) : (s.emit r).bus = s.bus := rfl
@[simp] theorem State.emit_ticks (s : State) (r : TraceRec) : (s.emit r).ticks = s.ticks := rfl
@[simp] theorem State.emit_trace (s : State) (r : TraceRec) : (s.emit r).trace = s.trace ++ [r] := rfl
@[simp] theorem State.emit_actions (s : State) (r : TraceRec) : (s.emit r).actions = s.actions := rfl
@[simp] theorem State.emit_inputs (s : State) (r : TraceRec) : (s.emit r).inputs = s.inputs := rfl

/-! `land` -/
@[simp] theorem State.land_cmdLat (s : State) : (s.land).cmdLat = s.cmdLat := rfl
@[simp] theorem State.land_state (s : State) : (s.land).state = s.state := rfl
@[simp] theorem State.land_held (s : State) : (s.land).held = s.held := rfl
@[simp] theorem State.land_sbound (s : State) : (s.land).sbound = s.sbound := rfl
@[simp] theorem State.land_line (s : State) : (s.land).line = s.line := rfl
@[simp] theorem State.land_lvalid (s : State) : (s.land).lvalid = s.lvalid := rfl
@[simp] theorem State.land_sleep (s : State) : (s.land).sleep = s.sleep := rfl
@[simp] theorem State.land_fcode (s : State) : (s.land).fcode = s.fcode := rfl
@[simp] theorem State.land_rej (s : State) : (s.land).rej = s.rej := rfl
@[simp] theorem State.land_perc (s : State) : (s.land).perc = s.perc := rfl
@[simp] theorem State.land_verb (s : State) : (s.land).verb = s.verb := rfl
@[simp] theorem State.land_sfilt (s : State) : (s.land).sfilt = s.sfilt := rfl
@[simp] theorem State.land_temp (s : State) : (s.land).temp = s.temp := rfl
@[simp] theorem State.land_usec (s : State) : (s.land).usec = s.usec := rfl
@[simp] theorem State.land_seq (s : State) : (s.land).seq = s.seq := rfl
@[simp] theorem State.land_lOp (s : State) : (s.land).lOp = s.lOp := rfl
@[simp] theorem State.land_lPin (s : State) : (s.land).lPin = s.lPin := rfl
@[simp] theorem State.land_lFreq (s : State) : (s.land).lFreq = s.lFreq := rfl
@[simp] theorem State.land_lArg (s : State) : (s.land).lArg = s.lArg := rfl
@[simp] theorem State.land_lVerb (s : State) : (s.land).lVerb = s.lVerb := rfl
@[simp] theorem State.land_lSfilt (s : State) : (s.land).lSfilt = s.lSfilt := rfl
@[simp] theorem State.land_wrem (s : State) : (s.land).wrem = s.wrem := rfl
@[simp] theorem State.land_stopReq (s : State) : (s.land).stopReq = s.stopReq := rfl
@[simp] theorem State.land_inFlight (s : State) : (s.land).inFlight = none := rfl
@[simp] theorem State.land_ending (s : State) : (s.land).ending = s.ending := rfl
@[simp] theorem State.land_epoch (s : State) : (s.land).epoch = s.epoch := rfl
@[simp] theorem State.land_setDone (s : State) : (s.land).setDone = s.setDone := rfl
@[simp] theorem State.land_pins (s : State) : (s.land).pins = s.pins := rfl
@[simp] theorem State.land_foreignDrive (s : State) : (s.land).foreignDrive = s.foreignDrive := rfl
@[simp] theorem State.land_bus (s : State) : (s.land).bus = s.bus := rfl
@[simp] theorem State.land_ticks (s : State) : (s.land).ticks = s.ticks := rfl
@[simp] theorem State.land_trace (s : State) : (s.land).trace = s.trace := rfl
@[simp] theorem State.land_actions (s : State) : (s.land).actions = s.actions := rfl
@[simp] theorem State.land_inputs (s : State) : (s.land).inputs = s.inputs := rfl

/-! `launch` -/
@[simp] theorem State.launch_cmdLat (s : State) (a : Action) : (s.launch a).cmdLat = s.cmdLat := rfl
@[simp] theorem State.launch_state (s : State) (a : Action) : (s.launch a).state = s.state := rfl
@[simp] theorem State.launch_held (s : State) (a : Action) : (s.launch a).held = s.held := rfl
@[simp] theorem State.launch_sbound (s : State) (a : Action) : (s.launch a).sbound = s.sbound := rfl
@[simp] theorem State.launch_line (s : State) (a : Action) : (s.launch a).line = s.line := rfl
@[simp] theorem State.launch_lvalid (s : State) (a : Action) : (s.launch a).lvalid = s.lvalid := rfl
@[simp] theorem State.launch_sleep (s : State) (a : Action) : (s.launch a).sleep = s.sleep := rfl
@[simp] theorem State.launch_fcode (s : State) (a : Action) : (s.launch a).fcode = s.fcode := rfl
@[simp] theorem State.launch_rej (s : State) (a : Action) : (s.launch a).rej = s.rej := rfl
@[simp] theorem State.launch_perc (s : State) (a : Action) : (s.launch a).perc = s.perc := rfl
@[simp] theorem State.launch_verb (s : State) (a : Action) : (s.launch a).verb = s.verb := rfl
@[simp] theorem State.launch_sfilt (s : State) (a : Action) : (s.launch a).sfilt = s.sfilt := rfl
@[simp] theorem State.launch_temp (s : State) (a : Action) : (s.launch a).temp = s.temp := rfl
@[simp] theorem State.launch_usec (s : State) (a : Action) : (s.launch a).usec = s.usec := rfl
@[simp] theorem State.launch_seq (s : State) (a : Action) : (s.launch a).seq = s.seq := rfl
@[simp] theorem State.launch_lOp (s : State) (a : Action) : (s.launch a).lOp = s.lOp := rfl
@[simp] theorem State.launch_lPin (s : State) (a : Action) : (s.launch a).lPin = s.lPin := rfl
@[simp] theorem State.launch_lFreq (s : State) (a : Action) : (s.launch a).lFreq = s.lFreq := rfl
@[simp] theorem State.launch_lArg (s : State) (a : Action) : (s.launch a).lArg = s.lArg := rfl
@[simp] theorem State.launch_lVerb (s : State) (a : Action) : (s.launch a).lVerb = s.lVerb := rfl
@[simp] theorem State.launch_lSfilt (s : State) (a : Action) : (s.launch a).lSfilt = s.lSfilt := rfl
@[simp] theorem State.launch_wrem (s : State) (a : Action) : (s.launch a).wrem = s.wrem := rfl
@[simp] theorem State.launch_stopReq (s : State) (a : Action) : (s.launch a).stopReq = s.stopReq := rfl
@[simp] theorem State.launch_inFlight (s : State) (a : Action) : (s.launch a).inFlight = some a := rfl
@[simp] theorem State.launch_ending (s : State) (a : Action) : (s.launch a).ending = s.ending := rfl
@[simp] theorem State.launch_epoch (s : State) (a : Action) : (s.launch a).epoch = s.epoch := rfl
@[simp] theorem State.launch_setDone (s : State) (a : Action) : (s.launch a).setDone = s.setDone := rfl
@[simp] theorem State.launch_pins (s : State) (a : Action) : (s.launch a).pins = s.pins := rfl
@[simp] theorem State.launch_foreignDrive (s : State) (a : Action) : (s.launch a).foreignDrive = s.foreignDrive := rfl
@[simp] theorem State.launch_bus (s : State) (a : Action) : (s.launch a).bus = s.bus := rfl
@[simp] theorem State.launch_ticks (s : State) (a : Action) : (s.launch a).ticks = s.ticks := rfl
@[simp] theorem State.launch_trace (s : State) (a : Action) : (s.launch a).trace = s.trace := rfl
@[simp] theorem State.launch_actions (s : State) (a : Action) : (s.launch a).actions = s.actions := rfl
@[simp] theorem State.launch_inputs (s : State) (a : Action) : (s.launch a).inputs = s.inputs := rfl

/-! `emitSetLog` -/
@[simp] theorem State.emitSetLog_cmdLat (s : State) (p : BitVec 6) (v : Bool) : (s.emitSetLog p v).cmdLat = s.cmdLat := by unfold State.emitSetLog; split <;> rfl
@[simp] theorem State.emitSetLog_state (s : State) (p : BitVec 6) (v : Bool) : (s.emitSetLog p v).state = s.state := by unfold State.emitSetLog; split <;> rfl
@[simp] theorem State.emitSetLog_held (s : State) (p : BitVec 6) (v : Bool) : (s.emitSetLog p v).held = s.held := by unfold State.emitSetLog; split <;> rfl
@[simp] theorem State.emitSetLog_sbound (s : State) (p : BitVec 6) (v : Bool) : (s.emitSetLog p v).sbound = s.sbound := by unfold State.emitSetLog; split <;> rfl
@[simp] theorem State.emitSetLog_line (s : State) (p : BitVec 6) (v : Bool) : (s.emitSetLog p v).line = s.line := by unfold State.emitSetLog; split <;> rfl
@[simp] theorem State.emitSetLog_lvalid (s : State) (p : BitVec 6) (v : Bool) : (s.emitSetLog p v).lvalid = s.lvalid := by unfold State.emitSetLog; split <;> rfl
@[simp] theorem State.emitSetLog_sleep (s : State) (p : BitVec 6) (v : Bool) : (s.emitSetLog p v).sleep = s.sleep := by unfold State.emitSetLog; split <;> rfl
@[simp] theorem State.emitSetLog_fcode (s : State) (p : BitVec 6) (v : Bool) : (s.emitSetLog p v).fcode = s.fcode := by unfold State.emitSetLog; split <;> rfl
@[simp] theorem State.emitSetLog_rej (s : State) (p : BitVec 6) (v : Bool) : (s.emitSetLog p v).rej = s.rej := by unfold State.emitSetLog; split <;> rfl
@[simp] theorem State.emitSetLog_perc (s : State) (p : BitVec 6) (v : Bool) : (s.emitSetLog p v).perc = s.perc := by unfold State.emitSetLog; split <;> rfl
@[simp] theorem State.emitSetLog_verb (s : State) (p : BitVec 6) (v : Bool) : (s.emitSetLog p v).verb = s.verb := by unfold State.emitSetLog; split <;> rfl
@[simp] theorem State.emitSetLog_sfilt (s : State) (p : BitVec 6) (v : Bool) : (s.emitSetLog p v).sfilt = s.sfilt := by unfold State.emitSetLog; split <;> rfl
@[simp] theorem State.emitSetLog_temp (s : State) (p : BitVec 6) (v : Bool) : (s.emitSetLog p v).temp = s.temp := by unfold State.emitSetLog; split <;> rfl
@[simp] theorem State.emitSetLog_usec (s : State) (p : BitVec 6) (v : Bool) : (s.emitSetLog p v).usec = s.usec := by unfold State.emitSetLog; split <;> rfl
@[simp] theorem State.emitSetLog_seq (s : State) (p : BitVec 6) (v : Bool) : (s.emitSetLog p v).seq = s.seq := by unfold State.emitSetLog; split <;> rfl
@[simp] theorem State.emitSetLog_lOp (s : State) (p : BitVec 6) (v : Bool) : (s.emitSetLog p v).lOp = s.lOp := by unfold State.emitSetLog; split <;> rfl
@[simp] theorem State.emitSetLog_lPin (s : State) (p : BitVec 6) (v : Bool) : (s.emitSetLog p v).lPin = s.lPin := by unfold State.emitSetLog; split <;> rfl
@[simp] theorem State.emitSetLog_lFreq (s : State) (p : BitVec 6) (v : Bool) : (s.emitSetLog p v).lFreq = s.lFreq := by unfold State.emitSetLog; split <;> rfl
@[simp] theorem State.emitSetLog_lArg (s : State) (p : BitVec 6) (v : Bool) : (s.emitSetLog p v).lArg = s.lArg := by unfold State.emitSetLog; split <;> rfl
@[simp] theorem State.emitSetLog_lVerb (s : State) (p : BitVec 6) (v : Bool) : (s.emitSetLog p v).lVerb = s.lVerb := by unfold State.emitSetLog; split <;> rfl
@[simp] theorem State.emitSetLog_lSfilt (s : State) (p : BitVec 6) (v : Bool) : (s.emitSetLog p v).lSfilt = s.lSfilt := by unfold State.emitSetLog; split <;> rfl
@[simp] theorem State.emitSetLog_wrem (s : State) (p : BitVec 6) (v : Bool) : (s.emitSetLog p v).wrem = s.wrem := by unfold State.emitSetLog; split <;> rfl
@[simp] theorem State.emitSetLog_stopReq (s : State) (p : BitVec 6) (v : Bool) : (s.emitSetLog p v).stopReq = s.stopReq := by unfold State.emitSetLog; split <;> rfl
@[simp] theorem State.emitSetLog_inFlight (s : State) (p : BitVec 6) (v : Bool) : (s.emitSetLog p v).inFlight = s.inFlight := by unfold State.emitSetLog; split <;> rfl
@[simp] theorem State.emitSetLog_ending (s : State) (p : BitVec 6) (v : Bool) : (s.emitSetLog p v).ending = s.ending := by unfold State.emitSetLog; split <;> rfl
@[simp] theorem State.emitSetLog_epoch (s : State) (p : BitVec 6) (v : Bool) : (s.emitSetLog p v).epoch = s.epoch := by unfold State.emitSetLog; split <;> rfl
@[simp] theorem State.emitSetLog_setDone (s : State) (p : BitVec 6) (v : Bool) : (s.emitSetLog p v).setDone = s.setDone := by unfold State.emitSetLog; split <;> rfl
@[simp] theorem State.emitSetLog_pins (s : State) (p : BitVec 6) (v : Bool) : (s.emitSetLog p v).pins = s.pins := by unfold State.emitSetLog; split <;> rfl
@[simp] theorem State.emitSetLog_foreignDrive (s : State) (p : BitVec 6) (v : Bool) : (s.emitSetLog p v).foreignDrive = s.foreignDrive := by unfold State.emitSetLog; split <;> rfl
@[simp] theorem State.emitSetLog_bus (s : State) (p : BitVec 6) (v : Bool) : (s.emitSetLog p v).bus = s.bus := by unfold State.emitSetLog; split <;> rfl
@[simp] theorem State.emitSetLog_ticks (s : State) (p : BitVec 6) (v : Bool) : (s.emitSetLog p v).ticks = s.ticks := by unfold State.emitSetLog; split <;> rfl
@[simp] theorem State.emitSetLog_trace (s : State) (p : BitVec 6) (v : Bool) : (s.emitSetLog p v).trace = s.trace ++ if 2 ≤ s.lVerb.toNat then [.setLog p v] else [] := by unfold State.emitSetLog; split <;> simp
@[simp] theorem State.emitSetLog_actions (s : State) (p : BitVec 6) (v : Bool) : (s.emitSetLog p v).actions = s.actions := by unfold State.emitSetLog; split <;> rfl
@[simp] theorem State.emitSetLog_inputs (s : State) (p : BitVec 6) (v : Bool) : (s.emitSetLog p v).inputs = s.inputs := by unfold State.emitSetLog; split <;> rfl

/-! `emitDecision` -/
@[simp] theorem State.emitDecision_cmdLat (s : State) (t : Word) (d : Decision) (perc : BitVec 7) (sleep : Bool) : (s.emitDecision t d perc sleep).cmdLat = s.cmdLat := by unfold State.emitDecision; split <;> rfl
@[simp] theorem State.emitDecision_state (s : State) (t : Word) (d : Decision) (perc : BitVec 7) (sleep : Bool) : (s.emitDecision t d perc sleep).state = s.state := by unfold State.emitDecision; split <;> rfl
@[simp] theorem State.emitDecision_held (s : State) (t : Word) (d : Decision) (perc : BitVec 7) (sleep : Bool) : (s.emitDecision t d perc sleep).held = s.held := by unfold State.emitDecision; split <;> rfl
@[simp] theorem State.emitDecision_sbound (s : State) (t : Word) (d : Decision) (perc : BitVec 7) (sleep : Bool) : (s.emitDecision t d perc sleep).sbound = s.sbound := by unfold State.emitDecision; split <;> rfl
@[simp] theorem State.emitDecision_line (s : State) (t : Word) (d : Decision) (perc : BitVec 7) (sleep : Bool) : (s.emitDecision t d perc sleep).line = s.line := by unfold State.emitDecision; split <;> rfl
@[simp] theorem State.emitDecision_lvalid (s : State) (t : Word) (d : Decision) (perc : BitVec 7) (sleep : Bool) : (s.emitDecision t d perc sleep).lvalid = s.lvalid := by unfold State.emitDecision; split <;> rfl
@[simp] theorem State.emitDecision_sleep (s : State) (t : Word) (d : Decision) (perc : BitVec 7) (sleep : Bool) : (s.emitDecision t d perc sleep).sleep = s.sleep := by unfold State.emitDecision; split <;> rfl
@[simp] theorem State.emitDecision_fcode (s : State) (t : Word) (d : Decision) (perc : BitVec 7) (sleep : Bool) : (s.emitDecision t d perc sleep).fcode = s.fcode := by unfold State.emitDecision; split <;> rfl
@[simp] theorem State.emitDecision_rej (s : State) (t : Word) (d : Decision) (perc : BitVec 7) (sleep : Bool) : (s.emitDecision t d perc sleep).rej = s.rej := by unfold State.emitDecision; split <;> rfl
@[simp] theorem State.emitDecision_perc (s : State) (t : Word) (d : Decision) (perc : BitVec 7) (sleep : Bool) : (s.emitDecision t d perc sleep).perc = s.perc := by unfold State.emitDecision; split <;> rfl
@[simp] theorem State.emitDecision_verb (s : State) (t : Word) (d : Decision) (perc : BitVec 7) (sleep : Bool) : (s.emitDecision t d perc sleep).verb = s.verb := by unfold State.emitDecision; split <;> rfl
@[simp] theorem State.emitDecision_sfilt (s : State) (t : Word) (d : Decision) (perc : BitVec 7) (sleep : Bool) : (s.emitDecision t d perc sleep).sfilt = s.sfilt := by unfold State.emitDecision; split <;> rfl
@[simp] theorem State.emitDecision_temp (s : State) (t : Word) (d : Decision) (perc : BitVec 7) (sleep : Bool) : (s.emitDecision t d perc sleep).temp = s.temp := by unfold State.emitDecision; split <;> rfl
@[simp] theorem State.emitDecision_usec (s : State) (t : Word) (d : Decision) (perc : BitVec 7) (sleep : Bool) : (s.emitDecision t d perc sleep).usec = s.usec := by unfold State.emitDecision; split <;> rfl
@[simp] theorem State.emitDecision_seq (s : State) (t : Word) (d : Decision) (perc : BitVec 7) (sleep : Bool) : (s.emitDecision t d perc sleep).seq = s.seq := by unfold State.emitDecision; split <;> rfl
@[simp] theorem State.emitDecision_lOp (s : State) (t : Word) (d : Decision) (perc : BitVec 7) (sleep : Bool) : (s.emitDecision t d perc sleep).lOp = s.lOp := by unfold State.emitDecision; split <;> rfl
@[simp] theorem State.emitDecision_lPin (s : State) (t : Word) (d : Decision) (perc : BitVec 7) (sleep : Bool) : (s.emitDecision t d perc sleep).lPin = s.lPin := by unfold State.emitDecision; split <;> rfl
@[simp] theorem State.emitDecision_lFreq (s : State) (t : Word) (d : Decision) (perc : BitVec 7) (sleep : Bool) : (s.emitDecision t d perc sleep).lFreq = s.lFreq := by unfold State.emitDecision; split <;> rfl
@[simp] theorem State.emitDecision_lArg (s : State) (t : Word) (d : Decision) (perc : BitVec 7) (sleep : Bool) : (s.emitDecision t d perc sleep).lArg = s.lArg := by unfold State.emitDecision; split <;> rfl
@[simp] theorem State.emitDecision_lVerb (s : State) (t : Word) (d : Decision) (perc : BitVec 7) (sleep : Bool) : (s.emitDecision t d perc sleep).lVerb = s.lVerb := by unfold State.emitDecision; split <;> rfl
@[simp] theorem State.emitDecision_lSfilt (s : State) (t : Word) (d : Decision) (perc : BitVec 7) (sleep : Bool) : (s.emitDecision t d perc sleep).lSfilt = s.lSfilt := by unfold State.emitDecision; split <;> rfl
@[simp] theorem State.emitDecision_wrem (s : State) (t : Word) (d : Decision) (perc : BitVec 7) (sleep : Bool) : (s.emitDecision t d perc sleep).wrem = s.wrem := by unfold State.emitDecision; split <;> rfl
@[simp] theorem State.emitDecision_stopReq (s : State) (t : Word) (d : Decision) (perc : BitVec 7) (sleep : Bool) : (s.emitDecision t d perc sleep).stopReq = s.stopReq := by unfold State.emitDecision; split <;> rfl
@[simp] theorem State.emitDecision_inFlight (s : State) (t : Word) (d : Decision) (perc : BitVec 7) (sleep : Bool) : (s.emitDecision t d perc sleep).inFlight = s.inFlight := by unfold State.emitDecision; split <;> rfl
@[simp] theorem State.emitDecision_ending (s : State) (t : Word) (d : Decision) (perc : BitVec 7) (sleep : Bool) : (s.emitDecision t d perc sleep).ending = s.ending := by unfold State.emitDecision; split <;> rfl
@[simp] theorem State.emitDecision_epoch (s : State) (t : Word) (d : Decision) (perc : BitVec 7) (sleep : Bool) : (s.emitDecision t d perc sleep).epoch = s.epoch := by unfold State.emitDecision; split <;> rfl
@[simp] theorem State.emitDecision_setDone (s : State) (t : Word) (d : Decision) (perc : BitVec 7) (sleep : Bool) : (s.emitDecision t d perc sleep).setDone = s.setDone := by unfold State.emitDecision; split <;> rfl
@[simp] theorem State.emitDecision_pins (s : State) (t : Word) (d : Decision) (perc : BitVec 7) (sleep : Bool) : (s.emitDecision t d perc sleep).pins = s.pins := by unfold State.emitDecision; split <;> rfl
@[simp] theorem State.emitDecision_foreignDrive (s : State) (t : Word) (d : Decision) (perc : BitVec 7) (sleep : Bool) : (s.emitDecision t d perc sleep).foreignDrive = s.foreignDrive := by unfold State.emitDecision; split <;> rfl
@[simp] theorem State.emitDecision_bus (s : State) (t : Word) (d : Decision) (perc : BitVec 7) (sleep : Bool) : (s.emitDecision t d perc sleep).bus = s.bus := by unfold State.emitDecision; split <;> rfl
@[simp] theorem State.emitDecision_ticks (s : State) (t : Word) (d : Decision) (perc : BitVec 7) (sleep : Bool) : (s.emitDecision t d perc sleep).ticks = s.ticks := by unfold State.emitDecision; split <;> rfl
@[simp] theorem State.emitDecision_trace (s : State) (t : Word) (d : Decision) (perc : BitVec 7) (sleep : Bool) : (s.emitDecision t d perc sleep).trace = s.trace ++ if 1 ≤ s.lVerb.toNat then [.decision s.lOp t d perc sleep] else [] := by unfold State.emitDecision; split <;> simp
@[simp] theorem State.emitDecision_actions (s : State) (t : Word) (d : Decision) (perc : BitVec 7) (sleep : Bool) : (s.emitDecision t d perc sleep).actions = s.actions := by unfold State.emitDecision; split <;> rfl
@[simp] theorem State.emitDecision_inputs (s : State) (t : Word) (d : Decision) (perc : BitVec 7) (sleep : Bool) : (s.emitDecision t d perc sleep).inputs = s.inputs := by unfold State.emitDecision; split <;> rfl

/-! `finish` -/
@[simp] theorem State.finish_cmdLat (s : State) (k : EndKind) : (s.finish k).cmdLat = s.cmdLat := by cases k <;> rfl
@[simp] theorem State.finish_state (s : State) (k : EndKind) : (s.finish k).state = (match k with | .done => .done | .stopped => .stopped | .fault _ => .fault) := by cases k <;> rfl
@[simp] theorem State.finish_held (s : State) (k : EndKind) : (s.finish k).held = s.held := by cases k <;> rfl
@[simp] theorem State.finish_sbound (s : State) (k : EndKind) : (s.finish k).sbound = s.sbound := by cases k <;> rfl
@[simp] theorem State.finish_line (s : State) (k : EndKind) : (s.finish k).line = s.line := by cases k <;> rfl
@[simp] theorem State.finish_lvalid (s : State) (k : EndKind) : (s.finish k).lvalid = s.lvalid := by cases k <;> rfl
@[simp] theorem State.finish_sleep (s : State) (k : EndKind) : (s.finish k).sleep = s.sleep := by cases k <;> rfl
@[simp] theorem State.finish_fcode (s : State) (k : EndKind) : (s.finish k).fcode = (match k with | .fault code => code | _ => s.fcode) := by cases k <;> rfl
@[simp] theorem State.finish_rej (s : State) (k : EndKind) : (s.finish k).rej = s.rej := by cases k <;> rfl
@[simp] theorem State.finish_perc (s : State) (k : EndKind) : (s.finish k).perc = s.perc := by cases k <;> rfl
@[simp] theorem State.finish_verb (s : State) (k : EndKind) : (s.finish k).verb = s.verb := by cases k <;> rfl
@[simp] theorem State.finish_sfilt (s : State) (k : EndKind) : (s.finish k).sfilt = s.sfilt := by cases k <;> rfl
@[simp] theorem State.finish_temp (s : State) (k : EndKind) : (s.finish k).temp = s.temp := by cases k <;> rfl
@[simp] theorem State.finish_usec (s : State) (k : EndKind) : (s.finish k).usec = s.usec := by cases k <;> rfl
@[simp] theorem State.finish_seq (s : State) (k : EndKind) : (s.finish k).seq = .idle := by cases k <;> rfl
@[simp] theorem State.finish_lOp (s : State) (k : EndKind) : (s.finish k).lOp = s.lOp := by cases k <;> rfl
@[simp] theorem State.finish_lPin (s : State) (k : EndKind) : (s.finish k).lPin = s.lPin := by cases k <;> rfl
@[simp] theorem State.finish_lFreq (s : State) (k : EndKind) : (s.finish k).lFreq = s.lFreq := by cases k <;> rfl
@[simp] theorem State.finish_lArg (s : State) (k : EndKind) : (s.finish k).lArg = s.lArg := by cases k <;> rfl
@[simp] theorem State.finish_lVerb (s : State) (k : EndKind) : (s.finish k).lVerb = s.lVerb := by cases k <;> rfl
@[simp] theorem State.finish_lSfilt (s : State) (k : EndKind) : (s.finish k).lSfilt = s.lSfilt := by cases k <;> rfl
@[simp] theorem State.finish_wrem (s : State) (k : EndKind) : (s.finish k).wrem = (match k with | .fault _ => 0 | _ => s.wrem) := by cases k <;> rfl
@[simp] theorem State.finish_stopReq (s : State) (k : EndKind) : (s.finish k).stopReq = false := by cases k <;> rfl
@[simp] theorem State.finish_inFlight (s : State) (k : EndKind) : (s.finish k).inFlight = s.inFlight := by cases k <;> rfl
@[simp] theorem State.finish_ending (s : State) (k : EndKind) : (s.finish k).ending = s.ending := by cases k <;> rfl
@[simp] theorem State.finish_epoch (s : State) (k : EndKind) : (s.finish k).epoch = s.epoch := by cases k <;> rfl
@[simp] theorem State.finish_setDone (s : State) (k : EndKind) : (s.finish k).setDone = s.setDone := by cases k <;> rfl
@[simp] theorem State.finish_pins (s : State) (k : EndKind) : (s.finish k).pins = s.pins := by cases k <;> rfl
@[simp] theorem State.finish_foreignDrive (s : State) (k : EndKind) : (s.finish k).foreignDrive = s.foreignDrive := by cases k <;> rfl
@[simp] theorem State.finish_bus (s : State) (k : EndKind) : (s.finish k).bus = s.bus := by cases k <;> rfl
@[simp] theorem State.finish_ticks (s : State) (k : EndKind) : (s.finish k).ticks = s.ticks := by cases k <;> rfl
@[simp] theorem State.finish_trace (s : State) (k : EndKind) : (s.finish k).trace = s.trace := by cases k <;> rfl
@[simp] theorem State.finish_actions (s : State) (k : EndKind) : (s.finish k).actions = s.actions := by cases k <;> rfl
@[simp] theorem State.finish_inputs (s : State) (k : EndKind) : (s.finish k).inputs = s.inputs := by cases k <;> rfl

/-! `terminate`: with the handle held the `Close()` is issued; without it the last writes are made at once. -/
theorem State.terminate_of_held {s : State} (h : s.held = true) (k : EndKind) (b : State) :
    State.terminate k b s =
      { s with inFlight := some .closeCtl, ending := some ⟨k, s.line, s.lvalid⟩, line := b.line, lvalid := b.lvalid } := by
  simp [State.terminate, h]

theorem State.terminate_of_not_held {s : State} (h : s.held = false) (k : EndKind) (b : State) :
    State.terminate k b s = s.finish k := by
  simp [State.terminate, h]

@[simp] theorem State.terminate_cmdLat (k : EndKind) (b s : State) : (State.terminate k b s).cmdLat = s.cmdLat := by
  unfold State.terminate; split <;> simp
@[simp] theorem State.terminate_held (k : EndKind) (b s : State) : (State.terminate k b s).held = s.held := by
  unfold State.terminate; split <;> simp
@[simp] theorem State.terminate_sbound (k : EndKind) (b s : State) : (State.terminate k b s).sbound = s.sbound := by
  unfold State.terminate; split <;> simp
@[simp] theorem State.terminate_sleep (k : EndKind) (b s : State) : (State.terminate k b s).sleep = s.sleep := by
  unfold State.terminate; split <;> simp
@[simp] theorem State.terminate_rej (k : EndKind) (b s : State) : (State.terminate k b s).rej = s.rej := by
  unfold State.terminate; split <;> simp
@[simp] theorem State.terminate_perc (k : EndKind) (b s : State) : (State.terminate k b s).perc = s.perc := by
  unfold State.terminate; split <;> simp
@[simp] theorem State.terminate_verb (k : EndKind) (b s : State) : (State.terminate k b s).verb = s.verb := by
  unfold State.terminate; split <;> simp
@[simp] theorem State.terminate_sfilt (k : EndKind) (b s : State) : (State.terminate k b s).sfilt = s.sfilt := by
  unfold State.terminate; split <;> simp
@[simp] theorem State.terminate_temp (k : EndKind) (b s : State) : (State.terminate k b s).temp = s.temp := by
  unfold State.terminate; split <;> simp
@[simp] theorem State.terminate_usec (k : EndKind) (b s : State) : (State.terminate k b s).usec = s.usec := by
  unfold State.terminate; split <;> simp
@[simp] theorem State.terminate_lOp (k : EndKind) (b s : State) : (State.terminate k b s).lOp = s.lOp := by
  unfold State.terminate; split <;> simp
@[simp] theorem State.terminate_lPin (k : EndKind) (b s : State) : (State.terminate k b s).lPin = s.lPin := by
  unfold State.terminate; split <;> simp
@[simp] theorem State.terminate_lFreq (k : EndKind) (b s : State) : (State.terminate k b s).lFreq = s.lFreq := by
  unfold State.terminate; split <;> simp
@[simp] theorem State.terminate_lArg (k : EndKind) (b s : State) : (State.terminate k b s).lArg = s.lArg := by
  unfold State.terminate; split <;> simp
@[simp] theorem State.terminate_lVerb (k : EndKind) (b s : State) : (State.terminate k b s).lVerb = s.lVerb := by
  unfold State.terminate; split <;> simp
@[simp] theorem State.terminate_lSfilt (k : EndKind) (b s : State) : (State.terminate k b s).lSfilt = s.lSfilt := by
  unfold State.terminate; split <;> simp
@[simp] theorem State.terminate_epoch (k : EndKind) (b s : State) : (State.terminate k b s).epoch = s.epoch := by
  unfold State.terminate; split <;> simp
@[simp] theorem State.terminate_setDone (k : EndKind) (b s : State) : (State.terminate k b s).setDone = s.setDone := by
  unfold State.terminate; split <;> simp
@[simp] theorem State.terminate_pins (k : EndKind) (b s : State) : (State.terminate k b s).pins = s.pins := by
  unfold State.terminate; split <;> simp
@[simp] theorem State.terminate_foreignDrive (k : EndKind) (b s : State) : (State.terminate k b s).foreignDrive = s.foreignDrive := by
  unfold State.terminate; split <;> simp
@[simp] theorem State.terminate_bus (k : EndKind) (b s : State) : (State.terminate k b s).bus = s.bus := by
  unfold State.terminate; split <;> simp
@[simp] theorem State.terminate_ticks (k : EndKind) (b s : State) : (State.terminate k b s).ticks = s.ticks := by
  unfold State.terminate; split <;> simp
@[simp] theorem State.terminate_trace (k : EndKind) (b s : State) : (State.terminate k b s).trace = s.trace := by
  unfold State.terminate; split <;> simp
@[simp] theorem State.terminate_actions (k : EndKind) (b s : State) : (State.terminate k b s).actions = s.actions := by
  unfold State.terminate; split <;> simp
@[simp] theorem State.terminate_inputs (k : EndKind) (b s : State) : (State.terminate k b s).inputs = s.inputs := by
  unfold State.terminate; split <;> simp

/-! `closed` -/
theorem State.closed_eq (e : Ending) (s : State) :
    s.closed e = State.finish e.kind { s with
      held := false
      line := e.line
      lvalid := e.lvalid
      inFlight := none
      ending := none
      actions := s.actions ++ [⟨.closeCtl, .ok⟩] } := rfl

end Sys2Proof.Machine
end

