-- ==== Sys2Proof/Laws/Step.lean ====
section
/-! SUPPORT. What each shared operation and each step can do, said once: the inversion lemmas the proofs cite. -/

namespace Sys2Proof.Machine

/-- A settled step either goes on at a label or completes the command. -/
theorem Progress.settle_cases (before : State) (p : Progress) :
    (∃ l s, p = .goto l s ∧ p.settle before = { s with seq := l }) ∨
    (∃ s, p = .finished s ∧ p.settle before = s.complete before) := by
  cases p with
  | goto l s => exact .inl ⟨l, s, rfl, rfl⟩
  | finished s => exact .inr ⟨s, rfl, rfl⟩

/-- A terminating step issues its `Close()` when the handle is held, and makes its last writes at once otherwise (R120). -/
theorem State.terminate_cases (k : EndKind) (before s : State) :
    (s.held = true ∧ State.terminate k before s = { s with
      inFlight := some .closeCtl, ending := some ⟨k, s.line, s.lvalid⟩, line := before.line, lvalid := before.lvalid }) ∨
    (s.held = false ∧ State.terminate k before s = s.finish k) := by
  by_cases h : s.held = true
  · exact .inl ⟨h, State.terminate_of_held h k before⟩
  · rw [Bool.not_eq_true] at h
    exact .inr ⟨h, State.terminate_of_not_held h k before⟩

/-- The answer of a `Close()` ends the terminating step under way, if there is one. -/
theorem State.closeAnswered_cases (s : State) :
    (∃ e, s.ending = some e ∧ s.closeAnswered = s.closed e) ∨ (s.ending = none ∧ s.closeAnswered = s) := by
  unfold State.closeAnswered
  cases h : s.ending with
  | none => exact .inr ⟨rfl, rfl⟩
  | some e => exact .inl ⟨e, rfl, rfl⟩

/-- Everything a `runCommand` that answers a next state has done. -/
theorem runCommand_next {plan : State → Label → Option Stage} {s t : State} (h : runCommand plan s = .next t) :
    (s.inputs.head?.getD .sequencer = .sequencer ∧ s.inFlight = none ∧
      ∃ stage, plan s s.seq = some stage ∧ t = s.popInput.launchAction stage.action) ∨
    (∃ ok level, s.inputs.head?.getD .sequencer = .gpio s.epoch ok level ∧ s.inFlight = some .closeCtl ∧
      t = s.popInput.closeAnswered) ∨
    (∃ ok level a stage, s.inputs.head?.getD .sequencer = .gpio s.epoch ok level ∧ s.inFlight = some a ∧ a ≠ .closeCtl ∧
      plan s s.seq = some stage ∧ t = stage.onGpio ok level s.popInput) ∨
    (∃ ok r a stage, s.inputs.head?.getD .sequencer = .sensor s.epoch ok r ∧ s.inFlight = some a ∧ a ≠ .closeCtl ∧
      plan s s.seq = some stage ∧ t = stage.onSensor ok r s.popInput) ∨
    (∃ m n next, s.inputs.head?.getD .sequencer = .tick ∧ s.inFlight = some (.wait m) ∧
      plan s s.seq = some (.wait n next) ∧ t = s.popInput.waitTick n next) ∨
    t = s.popInput := by
  unfold runCommand at h
  dsimp only at h
  split at h
  · next h1 h2 =>
    split at h
    · next stage h3 => cases h; exact .inl ⟨h1, h2, stage, h3, rfl⟩
    · cases h
  · next epoch ok level a h1 h2 =>
    split at h
    · cases h; exact .inr (.inr (.inr (.inr (.inr rfl))))
    · next he =>
      obtain rfl : epoch = s.epoch := by simpa using he
      split at h
      · next ha => subst ha; cases h; exact .inr (.inl ⟨ok, level, h1, h2, rfl⟩)
      · next ha =>
        split at h
        · next stage h3 => cases h; exact .inr (.inr (.inl ⟨ok, level, a, stage, h1, h2, ha, h3, rfl⟩))
        · cases h
  · next epoch ok r a h1 h2 =>
    split at h
    · cases h; exact .inr (.inr (.inr (.inr (.inr rfl))))
    · next he =>
      obtain ⟨rfl, ha⟩ : epoch = s.epoch ∧ a ≠ .closeCtl := by simpa [not_or] using he
      split at h
      · next stage h3 => cases h; exact .inr (.inr (.inr (.inl ⟨ok, r, a, stage, h1, h2, ha, h3, rfl⟩)))
      · cases h
  · next m h1 h2 =>
    split at h
    · next n next h3 => cases h; exact .inr (.inr (.inr (.inr (.inl ⟨m, n, next, h1, h2, h3, rfl⟩))))
    · cases h
  · cases h; exact .inr (.inr (.inr (.inr (.inr rfl))))

/-- What the sequencer's side of STOP does: the STOP step, the answer of its `Close()`, or nothing (R127). -/
theorem execStop_next {pin freq : BitVec 6} {arg : BitVec 16} {s t : State} (hh : ∀ a rest, s.inputs ≠ .host a :: rest)
    (h : execStop pin freq arg s = .next t) :
    (s.inputs.head?.getD .sequencer = .sequencer ∧ s.inFlight = none ∧ s.state = .busy ∧ s.stopReq = true ∧
      t = s.popInput.stopStep) ∨
    (∃ ok level, s.inputs.head?.getD .sequencer = .gpio s.epoch ok level ∧ s.inFlight = some .closeCtl ∧
      t = s.popInput.closeAnswered) ∨
    t = s.popInput := by
  unfold execStop at h
  split at h
  · next a rest e => exact absurd e (hh a rest)
  · split at h
    · next h1 h2 =>
      split at h
      · next h3 => cases h; exact .inl ⟨h1, h2, h3.1, h3.2, rfl⟩
      · cases h; exact .inr (.inr rfl)
    · next epoch ok level h1 h2 =>
      split at h
      · next he => subst he; cases h; exact .inr (.inl ⟨ok, level, h1, h2, rfl⟩)
      · cases h; exact .inr (.inr rfl)
    · cases h; exact .inr (.inr rfl)

/-- A command is issued when the host's access stands next, and runs otherwise. -/
theorem command_cases (i : Instr) (valid : Bool) (entry : Label) (plan : State → Label → Option Stage) (s : State) :
    (∃ a rest, s.inputs = .host a :: rest ∧
      command i valid entry plan s = .next (s.popInput.issue (encode i) valid entry)) ∨
    ((∀ a rest, s.inputs ≠ .host a :: rest) ∧ command i valid entry plan s = runCommand plan s) := by
  unfold command
  split
  · next a rest h => exact .inl ⟨a, rest, h, rfl⟩
  · next h => exact .inr ⟨fun a rest e => h a rest e, rfl⟩

/-- What a CMD write of a non-STOP word does: rejection, start, or the usage fault. -/
theorem issue_cases (w : Word) (valid : Bool) (entry : Label) (s : State) :
    (s.state = .busy ∧ s.issue w valid entry = { s with rej := true, bus := .written }) ∨
    (s.state ≠ .busy ∧ valid = true ∧ s.issue w valid entry = { s.accept w with state := .busy, seq := entry }) ∨
    (s.state ≠ .busy ∧ valid = false ∧ s.issue w valid entry = (s.accept w).raiseFault .usage (s.accept w)) := by
  unfold State.issue
  by_cases h : s.state = .busy
  · exact .inl ⟨h, by simp [h]⟩
  · cases valid
    · exact .inr (.inr ⟨h, rfl, by simp [h]⟩)
    · exact .inr (.inl ⟨h, rfl, by simp [h]⟩)

/-- What a GPIO answer does: the action goes on, or the command faults with the code of the action (R200), or the action is
not the GPIO controller's. -/
theorem onGpio_cases (ok level : Bool) (s : State) (stage : Stage) :
    (∃ next, stage = .openCtl next ∧ ok = true ∧ stage.onGpio ok level s = (next s.opened).settle s) ∨
    (∃ next, stage = .openCtl next ∧ ok = false ∧
      stage.onGpio ok level s = (s.land.record .openCtl .fail).raiseFault .openFail s) ∨
    (∃ p next, stage = .cfgPin p next ∧ ok = true ∧ stage.onGpio ok level s = (next (s.configured p)).settle s) ∨
    (∃ p next, stage = .cfgPin p next ∧ ok = false ∧
      stage.onGpio ok level s = (s.configFailed p).raiseFault .cfgFail s) ∨
    (∃ p v next, stage = .setPin p v next ∧ ok = true ∧ stage.onGpio ok level s = (next (s.driven p v)).settle s) ∨
    (∃ p v next, stage = .setPin p v next ∧ ok = false ∧
      stage.onGpio ok level s = (s.driveFailed p v).raiseFault .io s) ∨
    (∃ p next, stage = .getPin p next ∧ ok = true ∧
      stage.onGpio ok level s = (next (s.readback p level) (s.sampled p (s.readback p level))).settle s) ∨
    (∃ p next, stage = .getPin p next ∧ ok = false ∧ stage.onGpio ok level s = (s.sampleFailed p).raiseFault .io s) ∨
    (stage.onGpio ok level s = s ∧
      ((∃ next, stage = .bindSensor next) ∨ (∃ next, stage = .readTemp next) ∨ ∃ n next, stage = .wait n next)) := by
  cases stage with
  | setPin p v next =>
    cases ok
    · exact .inr (.inr (.inr (.inr (.inr (.inl ⟨p, v, next, rfl, rfl, rfl⟩)))))
    · exact .inr (.inr (.inr (.inr (.inl ⟨p, v, next, rfl, rfl, rfl⟩))))
  | _ => cases ok <;> simp [Stage.onGpio]

/-- What a sensor answer does. -/
theorem onSensor_cases (ok : Bool) (r : Word) (s : State) (stage : Stage) :
    (∃ next, stage = .bindSensor next ∧ ok = true ∧ stage.onSensor ok r s = (next s.bound).settle s) ∨
    (∃ next, stage = .bindSensor next ∧ ok = false ∧
      stage.onSensor ok r s = (s.land.record .bindSensor .fail).raiseFault .sensor s) ∨
    (∃ next, stage = .readTemp next ∧ stage.onSensor ok r s = (next r (s.temperature r)).settle s) ∨
    (stage.onSensor ok r s = s ∧
      ((∃ next, stage = .openCtl next) ∨ (∃ p next, stage = .cfgPin p next) ∨ (∃ p v next, stage = .setPin p v next) ∨
        (∃ p next, stage = .getPin p next) ∨ ∃ n next, stage = .wait n next)) := by
  cases stage <;> cases ok <;> simp [Stage.onSensor]

/-- What a tick of a wait does. -/
theorem waitTick_cases (n : Nat) (next : State → Progress) (s : State) :
    (s.wrem = 1 ∧ s.waitTick n next = (next (s.waited n)).settle s) ∨
    (s.wrem ≠ 1 ∧ s.stopReq = true ∧ s.waitTick n next = s.abortWait n) ∨
    (s.wrem ≠ 1 ∧ s.stopReq = false ∧ s.waitTick n next = s.countTick) := by
  unfold State.waitTick
  by_cases h : s.wrem = 1
  · exact .inl ⟨h, if_pos h⟩
  · rw [if_neg h]
    cases h2 : s.stopReq
    · exact .inr (.inr ⟨h, rfl, rfl⟩)
    · exact .inr (.inl ⟨h, rfl, rfl⟩)

/-- The evaluation changes PERC and SLEEP at most: its outcome and its effect, case by case (R176, R178). -/
theorem evaluate_cases (t : Word) (s : State) :
    (s.filtered t = true ∧ evaluate t s = (.skip, s)) ∨
    (s.filtered t = false ∧ t.toInt < s.low ∧ s.sleep = false ∧ evaluate t s = (.sleepEnter, { s with sleep := true })) ∨
    (s.filtered t = false ∧ s.high ≤ t.toInt ∧ s.sleep = true ∧ evaluate t s = (.wake, { s with sleep := false })) ∨
    (s.filtered t = false ∧ s.low ≤ t.toInt ∧ s.sleep = false ∧ evaluate t s = ramp t s) ∨
    (s.filtered t = false ∧ t.toInt < s.high ∧ s.sleep = true ∧ evaluate t s = (.noChange, s)) := by
  unfold evaluate
  cases hf : s.filtered t <;> cases hs : s.sleep <;> simp
  · by_cases h : t.toInt < s.low <;> simp [h]; omega
  · by_cases h : s.high ≤ t.toInt <;> simp [h]; omega

/-- The ramp moves PERC by one, inside 0..100, or holds it (R178). -/
theorem ramp_cases (t : Word) (s : State) :
    (s.target < roundDeg t.toInt ∧ s.perc.toNat < 100 ∧ ramp t s = (.inc, { s with perc := s.perc + 1 })) ∨
    (roundDeg t.toInt < s.target ∧ 0 < s.perc.toNat ∧ ramp t s = (.dec, { s with perc := s.perc - 1 })) ∨
    (¬ (s.target < roundDeg t.toInt ∧ s.perc.toNat < 100) ∧ ¬ (roundDeg t.toInt < s.target ∧ 0 < s.perc.toNat) ∧
      ramp t s = (.hold, s)) := by
  unfold ramp
  by_cases h : s.target < roundDeg t.toInt ∧ s.perc.toNat < 100
  · exact .inl ⟨h.1, h.2, by simp [h]⟩
  · by_cases h2 : roundDeg t.toInt < s.target ∧ 0 < s.perc.toNat
    · exact .inr (.inl ⟨h2.1, h2.2, by simp only [h, h2, if_false]; simp⟩)
    · exact .inr (.inr ⟨h, h2, by simp only [h, h2, if_false]⟩)

/-- An iteration's end adds its length to USEC, and goes on at the evaluation or at the next iteration (R175). -/
theorem thermoElapsed_cases (n : Nat) (s : State) :
    ∃ u : BitVec 21, u = BitVec.ofNat 21 (s.usec.toNat + n) ∧
      ((window ≤ u.toNat ∧
          thermoElapsed n s = .goto (if s.sbound then .thTread else .thBind) { s with usec := u }) ∨
        (u.toNat < window ∧ thermoElapsed n s = .goto s.thermoStart { s with usec := u })) := by
  refine ⟨_, rfl, ?_⟩
  unfold thermoElapsed
  by_cases h : window ≤ (BitVec.ofNat 21 (s.usec.toNat + n)).toNat
  · exact .inl ⟨h, by simp only [h, if_true]⟩
  · refine .inr ⟨by omega, ?_⟩
    simp only [h, if_false]
    rfl

/-- The word of the latches decodes to the running command: its operation is L_OP. -/
theorem fieldOp_latchedWord (s : State) : fieldOp s.latchedWord = s.lOp := fieldOp_packCmd _ _ _ _

end Sys2Proof.Machine
end

