-- ==== Sys2Proof/Laws/Exec.lean ====
section
/-! SUPPORT. `exec` and `step` by case: a CMD write issues its word, and a sequencer step runs the plan of L_OP. -/

namespace Sys2Proof.Machine

/-- What a step does, by the input that stands next (R8). -/
theorem step_cases (s : State) :
    (∃ rest, s.inputs = .reset :: rest ∧ step s = .next s.popInput.resetNow) ∨
    (∃ a rest w, s.inputs = .host a :: rest ∧ a.cmdWord = some w ∧ step s = exec (decodeWord w) s) ∨
    (∃ off size rest, s.inputs = .host (.read off size) :: rest ∧ step s = .next (s.popInput.hostRead off size)) ∨
    (∃ off size w rest, s.inputs = .host (.write off size w) :: rest ∧
      HostAccess.cmdWord (.write off size w) = none ∧ step s = .next (s.popInput.hostWrite off size w)) ∨
    ((∀ rest, s.inputs ≠ .reset :: rest) ∧ (∀ a rest, s.inputs ≠ .host a :: rest) ∧ s.state = .busy ∧
      step s = exec s.moving s) ∨
    ((∀ rest, s.inputs ≠ .reset :: rest) ∧ (∀ a rest, s.inputs ≠ .host a :: rest) ∧ s.state ≠ .busy ∧
      step s = .next s.popInput) := by
  unfold step
  split
  · next rest h => exact .inl ⟨rest, h, rfl⟩
  · next a rest h =>
    split
    · next w hw => exact .inr (.inl ⟨a, rest, w, h, hw, rfl⟩)
    · next hw =>
      cases a with
      | read off size => exact .inr (.inr (.inl ⟨off, size, rest, h, rfl⟩))
      | write off size w => exact .inr (.inr (.inr (.inl ⟨off, size, w, rest, h, hw, rfl⟩)))
  · next h1 h2 =>
    by_cases hb : s.state = .busy
    · exact .inr (.inr (.inr (.inr (.inl ⟨h1, h2, hb, if_pos hb⟩))))
    · exact .inr (.inr (.inr (.inr (.inr ⟨h1, h2, hb, if_neg hb⟩))))

end Sys2Proof.Machine
end

