-- ==== Sys2Proof/Laws/PerInstr.lean ====
section
/-! SUPPORT. One lemma per command: bits 3:0 of its word are the code of the opcode map (spec/30_encoding.md R78, R79). -/

namespace Sys2Proof.Laws

/-- The code of the opcode map (R78, R79). -/
def opcode : Instr → BitVec 4
  | .fixed _ _ _ => 1
  | .hyst _ _ _ => 2
  | .thermo _ _ _ => 3
  | .rpin _ _ _ => 4
  | .rtemp _ _ _ => 5
  | .pulse _ _ _ => 6
  | .stop _ _ _ => 7
  | .reserved0 _ _ _ => 0
  | .reserved8 _ _ _ => 8
  | .reserved9 _ _ _ => 9
  | .reservedA _ _ _ => 10
  | .reservedB _ _ _ => 11
  | .reservedC _ _ _ => 12
  | .reservedD _ _ _ => 13
  | .reservedE _ _ _ => 14
  | .reservedF _ _ _ => 15

/-- OP of the encoded word is the command's code. -/
def OpcodeBits.Statement (i : Instr) : Prop := fieldOp (encode i) = opcode i

theorem OpcodeBits.fixed (pin freq : BitVec 6) (arg : BitVec 16) : OpcodeBits.Statement (.fixed pin freq arg) :=
  fieldOp_packCmd _ _ _ _

theorem OpcodeBits.hyst (pin freq : BitVec 6) (arg : BitVec 16) : OpcodeBits.Statement (.hyst pin freq arg) :=
  fieldOp_packCmd _ _ _ _

theorem OpcodeBits.thermo (pin freq : BitVec 6) (arg : BitVec 16) : OpcodeBits.Statement (.thermo pin freq arg) :=
  fieldOp_packCmd _ _ _ _

theorem OpcodeBits.rpin (pin freq : BitVec 6) (arg : BitVec 16) : OpcodeBits.Statement (.rpin pin freq arg) :=
  fieldOp_packCmd _ _ _ _

theorem OpcodeBits.rtemp (pin freq : BitVec 6) (arg : BitVec 16) : OpcodeBits.Statement (.rtemp pin freq arg) :=
  fieldOp_packCmd _ _ _ _

theorem OpcodeBits.pulse (pin freq : BitVec 6) (arg : BitVec 16) : OpcodeBits.Statement (.pulse pin freq arg) :=
  fieldOp_packCmd _ _ _ _

theorem OpcodeBits.stop (pin freq : BitVec 6) (arg : BitVec 16) : OpcodeBits.Statement (.stop pin freq arg) :=
  fieldOp_packCmd _ _ _ _

theorem OpcodeBits.reserved0 (pin freq : BitVec 6) (arg : BitVec 16) : OpcodeBits.Statement (.reserved0 pin freq arg) :=
  fieldOp_packCmd _ _ _ _

theorem OpcodeBits.reserved8 (pin freq : BitVec 6) (arg : BitVec 16) : OpcodeBits.Statement (.reserved8 pin freq arg) :=
  fieldOp_packCmd _ _ _ _

theorem OpcodeBits.reserved9 (pin freq : BitVec 6) (arg : BitVec 16) : OpcodeBits.Statement (.reserved9 pin freq arg) :=
  fieldOp_packCmd _ _ _ _

theorem OpcodeBits.reservedA (pin freq : BitVec 6) (arg : BitVec 16) : OpcodeBits.Statement (.reservedA pin freq arg) :=
  fieldOp_packCmd _ _ _ _

theorem OpcodeBits.reservedB (pin freq : BitVec 6) (arg : BitVec 16) : OpcodeBits.Statement (.reservedB pin freq arg) :=
  fieldOp_packCmd _ _ _ _

theorem OpcodeBits.reservedC (pin freq : BitVec 6) (arg : BitVec 16) : OpcodeBits.Statement (.reservedC pin freq arg) :=
  fieldOp_packCmd _ _ _ _

theorem OpcodeBits.reservedD (pin freq : BitVec 6) (arg : BitVec 16) : OpcodeBits.Statement (.reservedD pin freq arg) :=
  fieldOp_packCmd _ _ _ _

theorem OpcodeBits.reservedE (pin freq : BitVec 6) (arg : BitVec 16) : OpcodeBits.Statement (.reservedE pin freq arg) :=
  fieldOp_packCmd _ _ _ _

theorem OpcodeBits.reservedF (pin freq : BitVec 6) (arg : BitVec 16) : OpcodeBits.Statement (.reservedF pin freq arg) :=
  fieldOp_packCmd _ _ _ _

end Sys2Proof.Laws
end

