-- ==== Sys2Proof/Laws/Pins.lean ====
section
/-! SUPPORT. The GPIO pin space: reading after driving, and the canonical form. -/

namespace Sys2Proof.Machine

theorem pinsAbove_mono {lo hi : Nat} (h : lo ≤ hi) (ps : Pins) (ha : pinsAbove hi ps = true) : pinsAbove lo ps = true := by
  induction ps with
  | nil => rfl
  | cons kv rest ih =>
    simp only [pinsAbove, Bool.and_eq_true, decide_eq_true_eq] at ha ⊢
    exact ⟨by omega, ha.2⟩

/-- A line below every listed pin has no entry. -/
theorem pinLevel_of_above {p : Nat} (ps : Pins) (h : pinsAbove p ps = true) : pinLevel p ps = none := by
  cases ps with
  | nil => rfl
  | cons kv rest =>
    simp only [pinsAbove, Bool.and_eq_true, decide_eq_true_eq] at h
    simp [pinLevel, show p ≠ kv.1 by omega, h.1]

theorem pinLevel_pinPut (p : Nat) (v : Bool) (ps : Pins) : pinLevel p (pinPut p v ps) = some v := by
  induction ps with
  | nil => simp [pinPut, pinLevel]
  | cons kv rest ih =>
    obtain ⟨k, u⟩ := kv
    unfold pinPut
    split
    · simp [pinLevel]
    · split
      · simp [pinLevel]
      · simp_all [pinLevel]

theorem pinLevel_pinPut_of_ne {p r : Nat} (h : r ≠ p) (v : Bool) (ps : Pins) :
    pinLevel r (pinPut p v ps) = pinLevel r ps := by
  induction ps with
  | nil => simp [pinPut, pinLevel, h]
  | cons kv rest ih =>
    obtain ⟨k, u⟩ := kv
    unfold pinPut
    split
    · subst_vars; simp [pinLevel, h]
    · split
      · by_cases h1 : r < p
        · simp [pinLevel, h, h1, show r ≠ k by omega, show r < k by omega]
        · simp [pinLevel, h, h1]
      · simp only [pinLevel, ih]

theorem pinsAbove_pinPut {lo p : Nat} (hlo : lo < p) (v : Bool) (ps : Pins) (h : pinsAbove lo ps = true) :
    pinsAbove lo (pinPut p v ps) = true := by
  induction ps generalizing lo with
  | nil => simp [pinPut, pinsAbove, hlo]
  | cons kv rest ih =>
    obtain ⟨k, u⟩ := kv
    simp only [pinsAbove, Bool.and_eq_true, decide_eq_true_eq] at h
    unfold pinPut
    split
    · subst_vars; simp [pinsAbove, h]
    · split
      · simp [pinsAbove, h.2, *]
      · simp only [pinsAbove, Bool.and_eq_true, decide_eq_true_eq]
        exact ⟨h.1, ih (by omega) h.2⟩

/-- Driving a line keeps the canonical form. -/
theorem pinsWf_pinPut (p : Nat) (v : Bool) (ps : Pins) (h : pinsWf ps = true) : pinsWf (pinPut p v ps) = true := by
  cases ps with
  | nil => simp [pinPut, pinsWf, pinsAbove]
  | cons kv rest =>
    obtain ⟨k, u⟩ := kv
    simp only [pinsWf] at h
    unfold pinPut
    split
    · subst_vars; simpa [pinsWf] using h
    · split
      · simp [pinsWf, pinsAbove, *]
      · exact pinsAbove_pinPut (by omega) v rest h

theorem pinsAbove_pinForget {lo : Nat} (p : Nat) (ps : Pins) (h : pinsAbove lo ps = true) :
    pinsAbove lo (pinForget p ps) = true := by
  induction ps generalizing lo with
  | nil => rfl
  | cons kv rest ih =>
    obtain ⟨k, u⟩ := kv
    have h' := h
    simp only [pinsAbove, Bool.and_eq_true, decide_eq_true_eq] at h'
    unfold pinForget
    split
    · exact pinsAbove_mono (Nat.le_of_lt h'.1) _ h'.2
    · split
      · exact h
      · simp only [pinsAbove, Bool.and_eq_true, decide_eq_true_eq]
        exact ⟨h'.1, ih h'.2⟩

/-- Forgetting a line keeps the canonical form. -/
theorem pinsWf_pinForget (p : Nat) (ps : Pins) (h : pinsWf ps = true) : pinsWf (pinForget p ps) = true := by
  cases ps with
  | nil => rfl
  | cons kv rest =>
    obtain ⟨k, u⟩ := kv
    simp only [pinsWf] at h
    unfold pinForget
    split
    · cases rest with
      | nil => rfl
      | cons kv' rest' =>
        simp only [pinsAbove, Bool.and_eq_true] at h
        exact h.2
    · split
      · exact h
      · exact pinsAbove_pinForget p rest h

theorem pinLevel_pinForget {p : Nat} (ps : Pins) (h : pinsWf ps = true) : pinLevel p (pinForget p ps) = none := by
  induction ps with
  | nil => rfl
  | cons kv rest ih =>
    obtain ⟨k, u⟩ := kv
    simp only [pinsWf] at h
    unfold pinForget
    split
    · subst_vars; exact pinLevel_of_above _ h
    · split
      · simp [pinLevel, *]
      · have hr : pinsWf rest = true := by
          cases rest with
          | nil => rfl
          | cons kv' rest' =>
            simp only [pinsAbove, Bool.and_eq_true] at h
            exact h.2
        simp_all [pinLevel]

theorem pinLevel_pinForget_of_ne {p r : Nat} (h : r ≠ p) (ps : Pins) (hw : pinsWf ps = true) :
    pinLevel r (pinForget p ps) = pinLevel r ps := by
  induction ps with
  | nil => rfl
  | cons kv rest ih =>
    obtain ⟨k, u⟩ := kv
    simp only [pinsWf] at hw
    have hr : pinsWf rest = true := by
      cases rest with
      | nil => rfl
      | cons kv' rest' =>
        simp only [pinsAbove, Bool.and_eq_true] at hw
        exact hw.2
    unfold pinForget
    split
    · subst_vars
      by_cases h1 : r < k
      · simp [pinLevel, h, h1, pinLevel_of_above rest (pinsAbove_mono (Nat.le_of_lt h1) rest hw)]
      · simp [pinLevel, h, h1]
    · split
      · rfl
      · simp only [pinLevel, ih hr]

end Sys2Proof.Machine
end

