-- ==== Sys2Proof/Tests/Slice0.lean ====
section
/-! SUPPORT. Tests on fixed values: the words of spec/30_encoding.md R85 and spec/95_test_vectors.md, each refusal of
WellFormed, one step of each command, and for every statement with hypotheses a state and operands that meet them. -/

namespace Sys2Proof.Tests

open Sys2Proof Sys2Proof.Machine

/-! ### Decoding: words written from the fields of R70, {ARG, FREQ, PIN, OP} -/

/-- R85: `FIXED 18, 30, 25`. -/
theorem test_decode_fixed : decodeWord 0x001E6521 = .fixed 18 25 30 := by decide
/-- R85: `HYST 4, -10`. -/
theorem test_decode_hyst : decodeWord 0xFFF60042 = .hyst 4 0 0xFFF6 := by decide
/-- R85: `THERMO 17, 45, 3`. -/
theorem test_decode_thermo : decodeWord 0x002D0D13 = .thermo 17 3 45 := by decide
/-- R85: `RPIN 18`. -/
theorem test_decode_rpin : decodeWord 0x00000124 = .rpin 18 0 0 := by decide
/-- V-V11: RTEMP with every other bit 1. -/
theorem test_decode_rtemp : decodeWord 0xFFFFFFF5 = .rtemp 63 63 0xFFFF := by decide
/-- R85: `PULSE 18, 30, 25`. -/
theorem test_decode_pulse : decodeWord 0x001E6526 = .pulse 18 25 30 := by decide
/-- R85: `STOP`. -/
theorem test_decode_stop : decodeWord 0x00000007 = .stop 0 0 0 := by decide
/-- OP 0000, PIN 000001, FREQ 000010, ARG 3. -/
theorem test_decode_reserved0 : decodeWord 0x00030810 = .reserved0 1 2 3 := by decide
/-- V-V8. -/
theorem test_decode_reserved8 : decodeWord 0x00000008 = .reserved8 0 0 0 := by decide
/-- OP 1001, PIN 1. -/
theorem test_decode_reserved9 : decodeWord 0x00000019 = .reserved9 1 0 0 := by decide
/-- OP 1010, FREQ 1. -/
theorem test_decode_reservedA : decodeWord 0x0000040A = .reservedA 0 1 0 := by decide
/-- OP 1011, ARG 1. -/
theorem test_decode_reservedB : decodeWord 0x0001000B = .reservedB 0 0 1 := by decide
/-- OP 1100, PIN 32. -/
theorem test_decode_reservedC : decodeWord 0x0000020C = .reservedC 32 0 0 := by decide
/-- OP 1101, FREQ 32. -/
theorem test_decode_reservedD : decodeWord 0x0000800D = .reservedD 0 32 0 := by decide
/-- OP 1110, ARG 0x8000. -/
theorem test_decode_reservedE : decodeWord 0x8000000E = .reservedE 0 0 0x8000 := by decide
/-- V-V9. -/
theorem test_decode_reservedF : decodeWord 0x0000000F = .reservedF 0 0 0 := by decide

/-- R53: lane 0 carries bits 7:0. -/
theorem test_decode_bytes : decode [0x21, 0x65, 0x1E, 0x00, 0xAA] = .ok (.fixed 18 25 30, [0xAA]) := by rfl
theorem test_decode_truncated : decode [0x21, 0x65, 0x1E] = .error (.truncated 3) := by rfl
theorem test_decodeTableWord_pulse : decodeTableWord 32 6 = some (.pulse 0 0 0) := by decide

/-! ### Well-formedness: each check refuses a term (V-V3 to V-V7, V-V14) -/

theorem test_illFormed_pin : (Instr.fixed 54 25 30).illFormed = some .pinRange := by decide
theorem test_illFormed_freq : (Instr.thermo 18 51 50).illFormed = some .freqRange := by decide
theorem test_illFormed_duty : (Instr.pulse 18 25 101).illFormed = some .dutyRange := by decide
theorem test_illFormed_noOperation : (Instr.reserved0 0 0 0).illFormed = some .noOperation := by decide
/-- V-V10: FREQ is ignored by HYST. -/
theorem test_wellFormed_hyst : (Instr.hyst 18 63 60).wellFormed = true := by decide

/-! ### Small states -/

/-- The state an outcome goes on in. -/
def nextOf : Host.Outcome State Fault Refusal → Option State
  | .next t => some t
  | _ => none

/-- One field of the state after a step. -/
def see {α : Type} (f : State → α) (o : Host.Outcome State Fault Refusal) : Option α := (nextOf o).map f

/-- Reset, and these inputs to come. -/
def fresh (xs : List Input) : State := { State.reset with inputs := xs }

/-- A command running on pin 18 at 25 Hz, at a step boundary, in epoch 0. Past the command's prologue its line was last set low;
past its `Bind()` the sensor is bound. -/
def running (op : BitVec 4) (l : Label) (arg : BitVec 16) (perc : BitVec 7) (xs : List Input) : State :=
  { State.reset with
    cmdLat := packCmd op 18 25 arg
    state := .busy
    held := !decide (l ∈ [Label.pOpen, .rtBind, .rtTread])
    sbound := decide (op ∈ ([2, 3, 5] : List (BitVec 4))) && !decide (l ∈ [Label.pOpen, .pCfg, .hyBind, .thBind, .rtBind])
    lvalid := !decide (l ∈ [Label.pOpen, .pCfg, .fxSet, .rpGet, .rtBind, .rtTread])
    seq := l
    lOp := op
    lPin := 18
    lFreq := 25
    lArg := arg
    perc := perc
    setDone := !decide (l ∈ [Label.pOpen, .pCfg, .fxSet, .rpGet, .rtBind, .rtTread])
    pins := if l ∈ [Label.pOpen, .pCfg, .fxSet, .rpGet, .rtBind, .rtTread] then [] else [(18, false)]
    inputs := xs }

/-- The same with the label's action in flight; a wait has `wrem` ticks left. -/
def flying (op : BitVec 4) (l : Label) (arg : BitVec 16) (perc : BitVec 7) (wrem : BitVec 21) (xs : List Input) : State :=
  { running op l arg perc xs with inFlight := (running op l arg perc xs).named, wrem := wrem }

/-- The same with the `Close()` of a terminating step in flight. -/
def closing (op : BitVec 4) (l : Label) (arg : BitVec 16) (e : Ending) (xs : List Input) : State :=
  { running op l arg 0 xs with inFlight := some .closeCtl, ending := some e }

/-! ### One step of each command -/

/-- V-F7's kin: duty 30 starts a pulse (R150). -/
theorem test_fixed_pulses :
    see State.seq (exec (.fixed 18 25 30) (flying 1 .pCfg 30 0 0 [.gpio 0 true false])) = some .puSetH := by decide
/-- V-F3: `FIXED 18, 100` drives the line high once and is DONE after its `Close()`; STATUS 0x00000062. -/
theorem test_fixed_full :
    see State.statusWord (steps 2 (flying 1 .fxSet 100 0 0 [.gpio 0 true false, .gpio 0 true false])) = some 0x00000062 := by
  decide
/-- R120, R54: until the `Close()` is answered the host reads BUSY, HELD, and LINE and LVALID as they were: 0x00000009. -/
theorem test_fixed_closing :
    see State.statusWord (step (flying 1 .fxSet 100 0 0 [.gpio 0 true false])) = some 0x00000009 := by decide
/-- R163: 60001 with target 60 and the line off switches on. -/
theorem test_hyst_on :
    see State.seq (step { flying 2 .hyGet 60 0 0 [.gpio 0 true true] with temp := 60001 }) = some .hySet := by decide
/-- R163: 60000 with target 60 is in the band. -/
theorem test_hyst_band :
    see State.seq (step { flying 2 .hyGet 60 0 0 [.gpio 0 true true] with temp := 60000 }) = some .hyWait := by decide
/-- R178: 50500 rounds to 51, above 50: PERC goes up. -/
theorem test_thermo_inc :
    see State.perc (step (flying 3 .thTread 50 50 0 [.sensor 0 true 50500])) = some 51 := by decide
/-- R176: 44999 is under 45000: sleep. -/
theorem test_thermo_sleep :
    see State.sleep (step (flying 3 .thTread 50 50 0 [.sensor 0 true 44999])) = some true := by decide
/-- V-RP2: `Get` fails: 0x00000404 after the `Close()`. -/
theorem test_rpin_fault :
    see State.statusWord (steps 2 (flying 4 .rpGet 0 0 0 [.gpio 0 false false, .gpio 0 true false])) = some 0x00000404 := by
  decide
/-- V-RP3: 45230 is 0x0000B0AE. -/
theorem test_rtemp_reading :
    see State.temp (step (flying 5 .rtTread 0 0 0 [.sensor 0 true 0x0000B0AE])) = some 0x0000B0AE := by decide
/-- V-P1: duty 30 at 25 Hz is high for 12000 ticks. -/
theorem test_pulse_high :
    see State.inFlight (step (running 6 .puWaitH 30 0 [.sequencer])) = some (some (.wait 12000)) := by decide
/-- V-V16: accepted, BUSY: STATUS 0x00000001. -/
theorem test_pulse_accepted :
    see State.statusWord (step (State.reset.withFetchWord 32 0x0001C926)) = some 0x00000001 := by decide
/-- V-V15: STOP in IDLE has no effect. -/
theorem test_stop_idle : see State.cmdLat (step (State.reset.withFetchWord 32 7)) = some 0 := by decide
/-- V-P10's last step: STATUS 0x00000063, the line left high. -/
theorem test_stop_step :
    see State.statusWord (steps 2 { running 6 .puWaitH 30 0 [.sequencer, .gpio 0 true false] with stopReq := true, line := true })
      = some 0x00000063 := by decide
/-- R240, U18: a reset abandons the `Set` in flight; the next command, a `Set` of its own in flight, does not take the late
answer for its own. -/
theorem test_late_answer :
    see State.inFlight (step { flying 1 .puSetH 30 0 0 [.gpio 0 false false] with epoch := 1 })
      = some (some (.setPin 18 true)) := by decide
/-- R240: a reset while the `Close()` is in flight abandons it: `Set` ok, then `Close` cut short. -/
theorem test_reset_cuts_close :
    see State.actions (step (closing 1 .fxSet 100 ⟨.done, true, true⟩ [.reset])) = some [⟨.closeCtl, .abandoned⟩] := by decide
/-- V-V9: 0x0000000F: FAULT_USAGE, STATUS 0x00000504. -/
theorem test_reserved_usage :
    see State.statusWord (step (State.reset.withFetchWord 32 0x0000000F)) = some 0x00000504 := by decide
/-- V-V13: THERMO starts at PERC 50: STATUS 0x00320001. -/
theorem test_thermo_accepted :
    see State.statusWord (step (State.reset.withFetchWord 32 0xFFFF0123)) = some 0x00320001 := by decide
/-- V-M2. -/
theorem test_read_temp : see State.bus (step (fresh [.host (.read 0x0C 4)])) = some (.data 0xFFFFFC19) := by decide
/-- V-M3. -/
theorem test_write_ctrl : see State.ctrlWord (step (fresh [.host (.write 0x08 4 0xFFFFFFFF)])) = some 7 := by decide
/-- V-M7: a misaligned write of a command word issues no command. -/
theorem test_misaligned_write :
    see State.bus (step (fresh [.host (.write 2 4 0x001E6526)])) = some .error := by decide

/-! ### Witnesses: the hypotheses of the statements can be met -/

/-- The invariant, evaluated. -/
def invOk (s : State) : Bool :=
  decide s.Legal && decide s.labelFits && decide s.operandsFit && decide s.latchesFit && decide s.flightFits &&
    decide s.endingFits && decide s.waitFits && decide s.handleFits && decide s.boundFits && decide s.windowFits && decide s.branchFits &&
    decide s.switchFits && decide s.linesFit

/-- Where the evaluation says yes, the invariant holds: the witnesses below use `invParts` for `State.Inv`. -/
abbrev invParts (s : State) : Prop := invOk s = true

theorem inv_of_parts {s : State} (h : invParts s) : s.Inv := by
  simp only [invParts, invOk, Bool.and_eq_true, decide_eq_true_eq] at h
  obtain ⟨⟨⟨⟨⟨⟨⟨⟨⟨⟨⟨⟨h1, h2⟩, h3⟩, h4⟩, h5⟩, h6⟩, h7⟩, h8⟩, h9⟩, h10⟩, h11⟩, h12⟩, h13⟩ := h
  exact ⟨h1, h2, h3, h4, h5, h6, h7, h8, h9, h10, h11, h12, h13⟩

theorem wit_EveryWordIsTheWordOfItsCommand :
    ([] : List Byte).length < 4 ∧ ([0x07, 0x00, 0x00] : List Byte).length < 4 := by decide

theorem wit_EncodingExamples : (0x00000000 : Word) ∈ ([0x001E6761, 0x00656521, 0x001ECD21, 0x00000000] : List Word) := by
  decide

theorem wit_AssembledLinesAreLegalAndDisassemble :
    (∀ v, AsmLine.thermo 53 (-32768) (some 50) ≠ .word v) ∧
      assemble (.thermo 53 (-32768) (some 50)) = some 0x8000CB53 := ⟨(by simp), by decide⟩

theorem wit_WellFormedMeansValid : fieldOp 0x00640B51 ≠ 7 ∧ fieldOp 0x0000000F ≠ 7 := by decide

theorem wit_ResetOverridesEverything :
    (flying 1 .puSetH 30 0 0 [.reset]).inputs = .reset :: [] ∧ (flying 1 .puSetH 30 0 0 [.reset]).inFlight ≠ none ∧
      (fresh [.reset]).inFlight = none := by decide

theorem wit_EveryStepKeepsTheInvariant :
    (running 1 .puSetH 30 0 [.sequencer]).Inv ∧ ∃ t, step (running 1 .puSetH 30 0 [.sequencer]) = .next t :=
  ⟨inv_of_parts (by decide), _, rfl⟩

theorem wit_NoStepStopsTheMachine : (flying 3 .thTread 50 50 0 [.sensor 0 true 50500]).Inv := inv_of_parts (by decide)

theorem wit_CmdWriteRunsTheDecodedCommand :
    decode (lanes 0x001E6521) = .ok (.fixed 18 25 30, []) ∧
      (fresh [.host (.write 0 4 0x001E6521)]).inputs = .host (.write 0 4 0x001E6521) :: [] := ⟨rfl, rfl⟩

theorem wit_SequencerStepRunsTheLatchedCommand :
    (running 1 .puSetH 30 0 [.tick]).state = .busy ∧
      (∀ a, (running 1 .puSetH 30 0 [.tick]).inputs.head? ≠ some (.host a)) ∧
      (running 1 .puSetH 30 0 [.tick]).inputs.head? ≠ some .reset ∧
      (running 1 .puSetH 30 0 [.tick]).stopReq = false ∧
      ∀ e, (closing 6 .puWaitL 30 ⟨.done, false, true⟩ [.tick]).ending = some e → e.kind ≠ .stopped :=
  ⟨rfl, (by simp [running]), by decide, rfl, by rintro e ⟨⟩; decide⟩

theorem wit_SequencerStepRunsTheLatchedCommand_stop :
    ({ running 1 .puSetH 30 0 [] with stopReq := true } : State).stopReq = true ∧
      ({ running 1 .puSetH 30 0 [] with stopReq := true } : State).inFlight = none ∧
      ({ flying 1 .puSetH 30 0 0 [] with stopReq := true } : State).inFlight ≠ none ∧
      (closing 1 .puSetH 30 ⟨.stopped, false, true⟩ []).ending.map Ending.kind = some .stopped := by decide

theorem wit_StrayInputsChangeNothing :
    ((fresh [.tick]).inputs = .tick :: [] ∧ (fresh [.tick]).state ≠ .busy) ∧
      ((running 1 .puSetH 30 0 [.sensor 0 true 7]).inputs = .sensor 0 true 7 :: [] ∧
        (running 1 .puSetH 30 0 [.sensor 0 true 7]).inFlight = none) ∧
      (1 ≠ (flying 1 .puSetH 30 0 0 [.gpio 1 true false]).epoch ∧
        (flying 1 .puSetH 30 0 0 [.gpio 1 true false]).inputs = .gpio 1 true false :: []) := by decide

/-- Its third clause: a sensor answer and a tick during a `Set`, a GPIO answer during a wait and during a `TRead`. -/
theorem wit_StrayInputsChangeNothing_inFlight :
    (invParts (flying 1 .puSetH 30 0 0 [.sensor 0 true 7]) ∧ (flying 1 .puSetH 30 0 0 []).inFlight = some (.setPin 18 true) ∧
        (Action.setPin 18 true).port ≠ .sensor ∧ (Action.setPin 18 true).port ≠ .timebase) ∧
      (invParts (flying 2 .hyWait 60 0 9 [.gpio 0 true true]) ∧ (flying 2 .hyWait 60 0 9 []).inFlight = some (.wait 1000000) ∧
        (Action.wait 1000000).port ≠ .gpio) ∧
      (invParts (flying 2 .hyTread 60 0 0 [.gpio 0 true true]) ∧ (flying 2 .hyTread 60 0 0 []).inFlight = some .readTemp ∧
        Action.readTemp.port ≠ .gpio) ∧
      invParts (closing 6 .puWaitL 30 ⟨.done, false, true⟩ [.tick]) := by decide

theorem wit_AcceptanceLatchesAndStartsOrFaults :
    (fresh [.host (.write 0 4 0x00640B51)]).inputs = .host (.write 0 4 (encode (.fixed 53 2 100))) :: [] ∧
      (fresh []).state ≠ .busy ∧ fieldOp (encode (.fixed 53 2 100)) ≠ 7 ∧
      validWord (encode (.fixed 53 2 100)) = true ∧ validWord (encode (.fixed 54 2 100)) = false := by decide

theorem wit_ReservedOperationsFaultUsage :
    Instr.reservedF 63 63 0xFFFF ∈ [Instr.reserved0 63 63 0xFFFF, .reserved8 63 63 0xFFFF, .reserved9 63 63 0xFFFF,
      .reservedA 63 63 0xFFFF, .reservedB 63 63 0xFFFF, .reservedC 63 63 0xFFFF, .reservedD 63 63 0xFFFF,
      .reservedE 63 63 0xFFFF, .reservedF 63 63 0xFFFF] ∧
      (fresh [.host (.write 0 4 0xFFFFFFFF)]).inputs = .host (.write 0 4 (encode (.reservedF 63 63 0xFFFF))) :: [] ∧
      (fresh []).state ≠ .busy ∧ (running 1 .puSetH 30 0 []).state = .busy := by decide

theorem wit_CmdWritesThatStartNothing :
    (running 1 .puSetH 30 0 [.host (.write 0 4 7)]).inputs = .host (.write 0 4 (encode (.stop 0 0 0))) :: [] ∧
      (running 1 .puSetH 30 0 []).state = .busy ∧ fieldOp (encode (.stop 0 0 0)) = 7 ∧
      fieldOp (encode (.rtemp 0 0 0)) ≠ 7 ∧ (fresh []).state ≠ .busy := by decide

theorem wit_NothingElseCarriesOver :
    ({ running 3 .idle 50 70 [.host (.write 0 4 5)] with state := .stopped, held := false, pins := [] } : State).inputs =
      (fresh [.host (.write 0 4 (encode (.rtemp 0 0 0)))]).inputs ∧ fieldOp (encode (.rtemp 0 0 0)) ≠ 7 ∧
      ({ running 3 .idle 50 70 [] with state := .stopped, pins := [] } : State).pins = (fresh []).pins ∧
      (running 3 .idle 50 70 []).epoch = (fresh []).epoch := by decide

theorem wit_IgnoredFieldsNeverMatter :
    sameUsedFields 0x003C0122 0x003CFD22 ∧ State.agreesOnUsed (running 5 .rtTread 0 0 []) (running 5 .rtTread 9 0 []) := by
  constructor
  · unfold sameUsedFields
    decide
  · unfold State.agreesOnUsed
    decide

theorem wit_RunningCommandKeepsItsConfiguration :
    (running 1 .puSetH 30 0 [.sequencer]).state = .busy ∧
      (running 1 .puSetH 30 0 [.sequencer]).inputs.head? ≠ some .reset ∧
      ∃ t, step (running 1 .puSetH 30 0 [.sequencer]) = .next t := ⟨rfl, by decide, _, rfl⟩

theorem wit_WindowAccessesReachTheirSlot :
    ((fresh [.host (.read 0x1C 4)]).inputs = .host (.read 0x1C 4) :: [] ∧ (0x1C : BitVec 5).toNat % 4 = 0 ∧
        (0x00 : BitVec 5).toNat % 4 = 0) ∧
      (fresh [.host (.write 0x08 4 5)]).inputs = .host (.write 0x08 4 5) :: [] ∧
      (0x1C : BitVec 5) ∈ ([0x04, 0x0C, 0x10, 0x14, 0x18, 0x1C] : List (BitVec 5)) ∧
      (0x04 : BitVec 5) ∈ ([0x04, 0x0C, 0x10, 0x14, 0x18, 0x1C] : List (BitVec 5)) := by decide

theorem wit_OtherAccessesAreBusErrors :
    (2 ≠ 4 ∧ (fresh [.host (.read 4 2)]).inputs = .host (.read 4 2) :: []) ∧
      ((31 : BitVec 5).toNat % 4 ≠ 0 ∧ (fresh [.host (.write 31 4 7)]).inputs = .host (.write 31 4 7) :: []) := by decide

theorem wit_WindowIsDecodedAtBase : 0 < 32 ∧ 31 < 32 ∧ Config.base + 32 ≤ Config.base + 32 := by omega

/-- Every label of every operation, with operands that make it reachable. -/
def stands : List (BitVec 4 × Label × BitVec 16 × BitVec 7) :=
  [(1, .pOpen, 30, 0), (1, .pCfg, 30, 0), (1, .puSetH, 1, 0), (1, .puWaitH, 1, 0), (1, .puSetL, 99, 0), (1, .puWaitL, 99, 0),
   (1, .fxSet, 100, 0), (2, .pOpen, 60, 0), (2, .hyBind, 60, 0), (2, .hyTread, 60, 0), (2, .hyGet, 60, 0),
   (2, .hySet, 60, 0), (2, .hyWait, 60, 0)] ++
  [(3, .pOpen, 50, 50), (3, .puSetH, 50, 1), (3, .puWaitH, 50, 99), (3, .puSetL, 50, 0), (3, .puWaitL, 50, 0),
   (3, .thGet, 50, 100), (3, .thSet, 50, 100), (3, .thWait, 50, 100), (3, .thBind, 50, 50), (3, .thTread, 50, 50),
   (4, .pOpen, 0, 0), (4, .rpGet, 0, 0), (5, .rtBind, 0, 0), (5, .rtTread, 0, 0), (6, .pOpen, 0, 0), (6, .puSetL, 0, 0),
   (6, .puWaitH, 100, 0)]

theorem wit_SequencerIssuesTheNamedAction :
    ∀ p ∈ stands, invParts (running p.1 p.2.1 p.2.2.1 p.2.2.2 [.sequencer]) ∧
      (running p.1 p.2.1 p.2.2.1 p.2.2.2 [.sequencer]).stopReq = false := by decide

theorem wit_TicksCountDownOrAbort :
    invParts (flying 2 .hyWait 60 0 1000000 [.tick]) ∧ invParts (flying 2 .hyWait 60 0 2 [.tick]) ∧
      invParts { flying 2 .hyWait 60 0 2 [.tick] with stopReq := true } ∧
      (flying 2 .hyWait 60 0 2 [.tick]).inFlight = some (.wait 1000000) := by decide

theorem wit_LastTickCompletesTheWait :
    invParts { flying 6 .puWaitL 30 0 1 [.tick] with stopReq := true } ∧
      (flying 6 .puWaitL 30 0 1 [.tick]).inFlight = some (.wait 28000) ∧ invParts (flying 2 .hyWait 60 0 1 [.tick]) := by decide

theorem wit_FailedActionsRaiseTheirFault :
    (invParts (flying 6 .pOpen 30 0 0 [.gpio 0 false true]) ∧ (flying 6 .pOpen 30 0 0 []).inFlight = some .openCtl ∧
      (flying 6 .pOpen 30 0 0 []).held = false) ∧
    (invParts (flying 5 .rtBind 0 0 0 [.sensor 0 false 0]) ∧ (flying 5 .rtBind 0 0 0 []).inFlight = some .bindSensor ∧
      (flying 5 .rtBind 0 0 0 []).held = false) ∧
    (invParts (flying 2 .hyBind 60 0 0 [.sensor 0 false 0]) ∧ (flying 2 .hyBind 60 0 0 []).inFlight = some .bindSensor ∧
      (flying 2 .hyBind 60 0 0 []).held = true) ∧
    (invParts (flying 6 .pCfg 30 0 0 [.gpio 0 false true]) ∧ (flying 6 .pCfg 30 0 0 []).inFlight = some (.cfgPin 18)) ∧
    (invParts (flying 6 .puSetH 30 0 0 [.gpio 0 false true]) ∧ (flying 6 .puSetH 30 0 0 []).inFlight = some (.setPin 18 true)) ∧
    (invParts (flying 4 .rpGet 0 0 0 [.gpio 0 false true]) ∧ (flying 4 .rpGet 0 0 0 []).inFlight = some (.getPin 18)) := by
  decide

theorem wit_PendingStopDoesNotTouchTheActionInFlight :
    invParts { flying 6 .puSetL 30 0 0 [.gpio 0 true true] with stopReq := true } ∧
      (∃ t, step { flying 6 .puSetL 30 0 0 [.gpio 0 true true] with stopReq := true } = .next t) ∧
      (flying 6 .puSetL 30 0 0 [.gpio 0 true true]).inFlight = some (.setPin 18 false) ∧
      (∀ n, Action.setPin 18 false ≠ .wait n) ∧
      ∀ e, (flying 6 .puSetL 30 0 0 [.gpio 0 true true]).ending = some e → e.kind ≠ .stopped :=
  ⟨by decide, ⟨_, rfl⟩, by decide, by simp, by rintro e ⟨⟩⟩

theorem wit_SuccessfulSetDrivesTheLine :
    (invParts (flying 1 .puSetH 30 0 0 [.gpio 0 true false]) ∧
      (flying 1 .puSetH 30 0 0 [.gpio 0 true false]).inFlight = some (.setPin 18 true)) ∧
    (invParts (flying 1 .fxSet 100 0 0 [.gpio 0 true false]) ∧
      (flying 1 .fxSet 100 0 0 [.gpio 0 true false]).inFlight = some (.setPin 18 true)) ∧
    (invParts (flying 6 .puSetL 100 0 0 [.gpio 0 true false]) ∧
      (flying 6 .puSetL 100 0 0 [.gpio 0 true false]).inFlight = some (.setPin 18 false)) := by decide

theorem wit_GetReadsBackTheLatestSet :
    (invParts (flying 2 .hyGet 60 0 0 [.gpio 0 true true]) ∧
      (flying 2 .hyGet 60 0 0 [.gpio 0 true true]).inFlight = some (.getPin 18) ∧
      (flying 2 .hyGet 60 0 0 []).setDone = true ∧ (flying 2 .hyGet 60 0 0 []).foreignDrive = false) ∧
    invParts { flying 2 .hyGet 60 0 0 [.gpio 0 true true] with setDone := false } ∧
    invParts { flying 2 .hyGet 60 0 0 [.gpio 0 true true] with foreignDrive := true } ∧
    (invParts (flying 4 .rpGet 0 0 0 [.gpio 0 true true]) ∧ (flying 4 .rpGet 0 0 0 []).inFlight = some (.getPin 18)) := by
  decide

theorem wit_OnlyTheConfiguredPinIsReached :
    (flying 1 .puSetH 30 0 0 [.gpio 0 true false]).Inv ∧
      (∃ t, step (flying 1 .puSetH 30 0 0 [.gpio 0 true false]) = .next t) ∧
      (flying 1 .puSetH 30 0 0 [.gpio 0 true false]).inputs.head? ≠ some .reset :=
  ⟨inv_of_parts (by decide), ⟨_, rfl⟩, by decide⟩

theorem wit_ObservationOnlyGrows :
    (∃ t, step (flying 1 .puSetH 30 0 0 [.gpio 0 true false]) = .next t) ∧ (flying 1 .puSetH 30 0 0 []).lVerb = 0 ∧
      (∃ t, step { flying 1 .puSetH 30 0 0 [.gpio 0 true false] with lVerb := 1 } = .next t) := ⟨⟨_, rfl⟩, rfl, ⟨_, rfl⟩⟩

theorem wit_StopStepEndsTheCommand :
    ({ running 1 .puSetH 30 0 [.sequencer] with stopReq := true } : State).stopReq = true ∧
      (running 1 .puSetH 30 0 [.sequencer]).state = .busy ∧ (running 1 .puSetH 30 0 [.sequencer]).inFlight = none ∧
      (running 1 .puSetH 30 0 [.sequencer, .gpio 0 true false]).inputs = .sequencer :: [.gpio 0 true false] ∧
      (running 1 .puSetH 30 0 []).held = true ∧ (running 5 .rtTread 0 0 []).held = false := by decide

theorem wit_CloseEndsTheCommand :
    ((closing 6 .puWaitL 30 ⟨.done, false, true⟩ [.gpio 0 false false]).inFlight = some .closeCtl ∧
      (closing 6 .puWaitL 30 ⟨.done, false, true⟩ [.gpio 0 false false]).inputs = .gpio 0 false false :: []) ∧
    (closing 2 .hyGet 60 ⟨.fault .io, false, false⟩ []).ending = some ⟨.fault .io, false, false⟩ ∧
    (closing 3 .puSetH 50 ⟨.stopped, true, true⟩ []).ending = some ⟨.stopped, true, true⟩ ∧
    Instr.stop 1 2 3 ∈ [Instr.fixed 1 2 3, .hyst 1 2 3, .thermo 1 2 3, .pulse 1 2 3, .rpin 1 2 3, .stop 1 2 3] := by decide

theorem wit_EveryExitReleasesTheHandle :
    (closing 6 .puWaitL 30 ⟨.done, false, true⟩ [.gpio 0 true false]).Inv ∧
      (closing 6 .puWaitL 30 ⟨.done, false, true⟩ [.gpio 0 true false]).held = true ∧
      (closing 6 .puWaitL 30 ⟨.done, false, true⟩ [.gpio 0 true false]).inputs.head? ≠ some .reset ∧
      see State.state (step (closing 6 .puWaitL 30 ⟨.done, false, true⟩ [.gpio 0 true false])) = some .done :=
  ⟨inv_of_parts (by decide), by decide, by decide, by decide⟩

theorem wit_OpenAcquiresTheHandle :
    (flying 4 .pOpen 0 0 0 [.gpio 0 true true]).inFlight = some .openCtl ∧
      (flying 4 .pOpen 0 0 0 [.gpio 0 true true]).inputs = .gpio 0 true true :: [] ∧
      Instr.rpin 18 0 0 ∈ [Instr.fixed 18 0 0, .hyst 18 0 0, .thermo 18 0 0, .pulse 18 0 0, .rpin 18 0 0] := by decide

theorem wit_CfgStartsTheBody :
    (flying 3 .pCfg 50 50 0 [.gpio 0 true true]).inFlight = some (.cfgPin 18) ∧
      (flying 3 .pCfg 50 50 0 [.gpio 0 true true]).inputs = .gpio 0 true true :: [] ∧
      Instr.thermo 18 0 0 ∈ [Instr.fixed 18 0 0, .hyst 18 0 0, .thermo 18 0 0, .pulse 18 0 0] := by decide

theorem wit_BindMarksTheSensor :
    (flying 2 .hyBind 60 0 0 [.sensor 0 true 7]).inFlight = some .bindSensor ∧
      (flying 3 .thBind 50 50 0 [.sensor 0 true 7]).inFlight = some .bindSensor ∧
      (flying 5 .rtBind 0 0 0 [.sensor 0 true 7]).inFlight = some .bindSensor ∧
      (flying 5 .rtBind 0 0 0 [.sensor 0 true 7]).inputs = .sensor 0 true 7 :: [] ∧
      (Instr.rtemp 1 2 3, Label.rtBind, Label.rtTread) ∈ [(Instr.hyst 1 2 3, Label.hyBind, Label.hyTread),
        (.thermo 1 2 3, .thBind, .thTread), (.rtemp 1 2 3, .rtBind, .rtTread)] := by decide

theorem wit_PulsePeriodLaw : 100 ≤ 100 ∧ 1 ≤ 1 ∧ 1 ≤ 50 ∧ 50 ≤ 50 := by decide

theorem wit_PulseMakesExactlyOnePeriod :
    invParts (running 6 .pOpen 100 0 (gpioOk 0 false ++ gpioOk 0 false ++ pulseInputs 0 100 25 ++ closeOk 0 ++ [])) ∧
      invParts (running 6 .pOpen 0 0 (gpioOk 0 false ++ gpioOk 0 false ++ pulseInputs 0 0 25 ++ closeOk 0 ++ [])) ∧
      (running 6 .pOpen 100 0 []).atLabel 6 .pOpen := by decide

theorem wit_PulseCompletesWithItsLowWait :
    invParts (flying 6 .puWaitL 30 0 1 [.tick]) ∧
      (flying 6 .puWaitL 30 0 1 [.tick]).inFlight = some (.wait 28000) ∧ (flying 6 .puWaitL 30 0 1 [.tick]).seq = .puWaitL ∧
      (flying 6 .puWaitL 30 0 1 [.tick]).wrem = 1 ∧ (flying 6 .puWaitL 30 0 1 [.tick]).inputs = .tick :: [] := by decide

theorem wit_FixedBoundarySetCompletes :
    invParts (flying 1 .fxSet 100 0 0 [.gpio 0 true false]) ∧
      (flying 1 .fxSet 100 0 0 [.gpio 0 true false]).inFlight = some (.setPin 18 true) ∧
      invParts (flying 1 .fxSet 0 0 0 [.gpio 0 true false]) ∧
      (flying 1 .fxSet 0 0 0 [.gpio 0 true false]).inFlight = some (.setPin 18 false) := by decide

theorem wit_FixedBoundaryDutiesSetOnce :
    (invParts (running 1 .pOpen 100 0 (gpioOk 0 true ++ gpioOk 0 true ++ gpioOk 0 true ++ closeOk 0 ++ [])) ∧
      (running 1 .pOpen 100 0 []).atLabel 1 .pOpen ∧ (running 1 .pOpen 100 0 []).lArg.toNat = 100) ∧
    invParts (running 1 .pOpen 0 0 (gpioOk 0 true ++ gpioOk 0 true ++ gpioOk 0 true ++ closeOk 0 ++ [])) := by decide

theorem wit_FixedPulsesWithoutEnd :
    invParts (running 1 .puSetH 1 0 (pulseInputs 0 1 25 ++ [])) ∧ (running 1 .puSetH 1 0 []).atLabel 1 .puSetH ∧
      invParts (running 1 .puSetH 99 0 (pulseInputs 0 99 25 ++ [])) := by decide

theorem wit_HystReadsOrSkips :
    (flying 2 .hyTread 60 0 0 [.sensor 0 true 0xFFFFFC19]).inFlight = some .readTemp ∧
      (flying 2 .hyTread 60 0 0 [.sensor 0 true 0xFFFFFC19]).inputs = .sensor 0 true 0xFFFFFC19 :: [] := by decide

theorem wit_HystDecidesOnTheBand :
    (flying 2 .hyGet 60 0 0 [.gpio 0 true true]).inFlight = some (.getPin 18) ∧
      false = (if (flying 2 .hyGet 60 0 0 []).setDone = true ∧ (flying 2 .hyGet 60 0 0 []).foreignDrive = false then
        (pinLevel 18 (flying 2 .hyGet 60 0 0 []).pins).getD true else true) := by decide

theorem wit_HystSwitchesTheLine :
    ({ flying 2 .hySet 60 0 0 [.gpio 0 true true] with temp := 60001 } : State).inFlight = some (.setPin 18 false) ∧
      true = decide (1000 * (60 : BitVec 16).toInt < (60001 : Word).toInt) ∧
      false = decide (1000 * (60 : BitVec 16).toInt < (54999 : Word).toInt) := by decide

theorem wit_HystWaitStartsTheNextTick :
    (flying 2 .hyWait 60 0 1 [.tick]).inFlight = some (.wait 1000000) ∧ (flying 2 .hyWait 60 0 1 [.tick]).wrem = 1 ∧
      (flying 2 .hyWait 60 0 1 [.tick]).sbound = true ∧
      ({ flying 2 .hyWait 60 0 1 [.tick] with sbound := false } : State).sbound = false := by decide

theorem wit_HystBandIsIdempotent :
    invParts (running 2 .hyTread 60 0 (sensorOk 0 55000 ++ gpioOk 0 true ++ waitFor 1000000 ++ [])) ∧
      invParts (running 2 .hyTread 60 0 (sensorOk 0 60000 ++ gpioOk 0 true ++ waitFor 1000000 ++ [])) ∧
      (running 2 .hyTread 60 0 []).atLabel 2 .hyTread ∧ (running 2 .hyTread 60 0 []).setDone = true ∧
      (running 2 .hyTread 60 0 []).foreignDrive = false ∧ (55000 : Word) ≠ 0xFFFFFC19 ∧
      1000 * (60 : BitVec 16).toInt - 5000 ≤ (55000 : Word).toInt ∧ (60000 : Word).toInt ≤ 1000 * (60 : BitVec 16).toInt := by
  decide

theorem wit_ThermoEvaluatesTheReading :
    (flying 3 .thTread 50 50 0 [.sensor 0 true 50500]).inFlight = some .readTemp ∧
      (flying 3 .thTread 50 50 0 [.sensor 0 true 50500]).inputs = .sensor 0 true 50500 :: [] ∧
      (50 : BitVec 16).toInt < roundDeg (50500 : Word).toInt := by decide

theorem wit_ThermoIterationsFillTheWindow :
    ((flying 3 .thWait 50 100 1 [.tick]).inFlight = some (.wait 1000000) ∧ (flying 3 .thWait 50 100 1 []).usec.toNat < 1000000) ∧
    ((flying 3 .puWaitL 50 50 1 [.tick]).inFlight = some (.wait 20000) ∧
      ({ flying 3 .puWaitL 50 50 1 [.tick] with usec := 999999 } : State).usec.toNat < 1000000) := by decide

theorem wit_EnsureWritesOnlyIfTheLevelDiffers :
    (flying 3 .thGet 50 100 0 [.gpio 0 true true]).inFlight = some (.getPin 18) ∧
      (flying 3 .thSet 50 100 0 [.gpio 0 true true]).inFlight = some (.setPin 18 true) ∧
      ({ flying 3 .thSet 50 100 0 [] with sleep := true } : State).sleep = true := by decide

theorem wit_ThermoWindowHasNPulses :
    (running 3 .puSetH 50 99 ((List.replicate 25 (pulseInputs 0 99 25)).flatten ++ [])).Inv ∧
      (running 3 .puSetH 50 99 []).atLabel 3 (branchLabel false 99) ∧
      25 = (1000000 + 100 * (10000 / 25) - 1) / (100 * (10000 / 25)) ∧
      (running 3 .puSetL 50 0 ((List.replicate 25 (pulseInputs 0 0 25)).flatten ++ [])).Inv :=
  ⟨inv_of_parts (by decide), by decide, by decide, inv_of_parts (by decide)⟩

theorem wit_PercMovesByOneInEvaluationsOnly :
    (flying 3 .thTread 50 99 0 [.sensor 0 true 50500]).Inv ∧
      see State.perc (step (flying 3 .thTread 50 99 0 [.sensor 0 true 50500])) = some 100 :=
  ⟨inv_of_parts (by decide), by decide⟩

theorem wit_SleepLatchesUntilTheTarget :
    invParts { flying 3 .thTread 50 50 0 [.sensor 0 true 50000] with sleep := true } ∧
      see State.sleep (step { flying 3 .thTread 50 50 0 [.sensor 0 true 50000] with sleep := true }) = some false ∧
      see State.sleep (step { flying 3 .thTread 50 50 0 [.sensor 0 true 49999] with sleep := true }) = some true := by decide

theorem wit_ThermoRampsUpToFull :
    (running 3 .thTread 50 50 []).sleep = false ∧ (running 3 .thTread 50 50 []).perc = 50 ∧ (55000 : Word) ≠ 0xFFFFFC19 ∧
      1000 * (50 : BitVec 16).toInt - 5000 ≤ (55000 : Word).toInt ∧ (50 : BitVec 16).toInt < roundDeg (55000 : Word).toInt := by
  decide

theorem wit_ReportCommandsReport :
    (invParts (flying 4 .rpGet 0 0 0 [.gpio 0 true true]) ∧ (flying 4 .rpGet 0 0 0 []).inFlight = some (.getPin 18)) ∧
      (invParts (flying 5 .rtTread 0 0 0 [.sensor 0 true 0xFFFFFC19]) ∧
        (flying 5 .rtTread 0 0 0 [.sensor 0 true 0xFFFFFC19]).inFlight = some .readTemp ∧
        (flying 5 .rtTread 0 0 0 [.sensor 0 true 0xFFFFFC19]).inputs = .sensor 0 true 0xFFFFFC19 :: []) := by decide

theorem wit_RtempBindsAndReads :
    invParts (running 5 .rtBind 0 0 (sensorOk 0 1 ++ sensorOk 0 2 ++ [])) ∧ (running 5 .rtBind 0 0 []).atLabel 5 .rtBind := by decide

end Sys2Proof.Tests
end

section
/-! The observation and the trace only grow (O33): each operation a step is made of extends both, a command's computations
included, and the extensions compose. -/

namespace Sys2Proof.Machine

/-! ### `exec` by plan -/

/-- Every command but STOP is `command` with the plan of its operation. -/
theorem exec_cases (i : Instr) :
    (∃ pin freq arg, i = .stop pin freq arg ∧ exec i = execStop pin freq arg) ∨
    ∃ valid entry, exec i = command i valid entry (planOf (Laws.opcode i)) := by
  cases i with
  | stop pin freq arg => exact .inl ⟨pin, freq, arg, rfl, rfl⟩
  | _ => exact .inr ⟨_, _, rfl⟩

/-- STOP's CMD write is a request; otherwise the sequencer's side of STOP moves (R122, R127). -/
theorem execStop_cases (pin freq : BitVec 6) (arg : BitVec 16) (s : State) :
    (∃ a rest, s.inputs = .host a :: rest ∧ execStop pin freq arg s = .next s.popInput.requestStop) ∨
    (∀ a rest, s.inputs ≠ .host a :: rest) := by
  by_cases h : ∃ a rest, s.inputs = .host a :: rest
  · obtain ⟨a, rest, hin⟩ := h
    exact .inl ⟨a, rest, hin, by simp [execStop, hin]⟩
  · exact .inr fun a rest hin => h ⟨a, rest, hin⟩

/-- The ramp changes nothing but PERC. -/
theorem ramp_snd_eq (t : Word) (s : State) : ∃ perc, (ramp t s).2 = { s with perc := perc } := by
  obtain ⟨-, -, h⟩ | ⟨-, -, h⟩ | ⟨-, -, h⟩ := ramp_cases t s <;> exact ⟨_, congrArg Prod.snd h⟩

/-- The evaluation changes nothing but PERC and SLEEP. -/
theorem evaluate_snd_eq (t : Word) (s : State) :
    ∃ perc sleep, (evaluate t s).2 = { s with perc := perc, sleep := sleep } := by
  obtain ⟨-, h⟩ | ⟨-, -, -, h⟩ | ⟨-, -, -, h⟩ | ⟨-, -, -, h⟩ | ⟨-, -, -, h⟩ := evaluate_cases t s <;> rw [h]
  · exact ⟨_, _, rfl⟩
  · exact ⟨_, _, rfl⟩
  · exact ⟨_, _, rfl⟩
  · obtain ⟨perc, hramp⟩ := ramp_snd_eq t s
    exact ⟨perc, s.sleep, hramp⟩
  · exact ⟨_, _, rfl⟩

/-! ### Extending the observation and the trace -/

/-- The records L_VERB lets a step add: none at 0, no SETLOG at 1 (R230). -/
def RecordsAllowed (verb : BitVec 2) (new : List TraceRec) : Prop :=
  (verb = 0 → new = []) ∧ (verb = 1 → ∀ p v, TraceRec.setLog p v ∉ new)

theorem recordsAllowed_nil (verb : BitVec 2) : RecordsAllowed verb [] := by simp [RecordsAllowed]

theorem RecordsAllowed.append {verb : BitVec 2} {xs ys : List TraceRec} (hx : RecordsAllowed verb xs)
    (hy : RecordsAllowed verb ys) : RecordsAllowed verb (xs ++ ys) := by
  obtain ⟨hx0, hx1⟩ := hx
  obtain ⟨hy0, hy1⟩ := hy
  exact ⟨fun h => by simp [hx0 h, hy0 h], fun h p v => by simp [hx1 h p v, hy1 h p v]⟩

/-- `t` keeps every action and record of `s`, and what it adds to the trace is allowed at the L_VERB of `s`. -/
def State.ExtendedBy (s t : State) : Prop :=
  s.actions <+: t.actions ∧ ∃ new, t.trace = s.trace ++ new ∧ RecordsAllowed s.lVerb new

theorem State.ExtendedBy.of_append {s t : State} {new : List PortEvent} (ha : t.actions = s.actions ++ new)
    (ht : t.trace = s.trace) : s.ExtendedBy t :=
  ⟨⟨new, ha.symm⟩, [], by simp [ht], recordsAllowed_nil _⟩

theorem State.ExtendedBy.of_eq {s t : State} (ha : t.actions = s.actions) (ht : t.trace = s.trace) : s.ExtendedBy t :=
  .of_append (new := []) (by simp [ha]) ht

/-- Extensions compose, as long as L_VERB stays. -/
theorem State.ExtendedBy.trans {s t u : State} (hst : s.ExtendedBy t) (hv : t.lVerb = s.lVerb) (htu : t.ExtendedBy u) :
    s.ExtendedBy u := by
  obtain ⟨hact, new, htrace, hnew⟩ := hst
  obtain ⟨hact', new', htrace', hnew'⟩ := htu
  exact ⟨hact.trans hact', new ++ new', by rw [htrace', htrace, List.append_assoc], hnew.append (hv ▸ hnew')⟩

/-- A SETLOG record needs L_VERB 2 (R231). -/
theorem State.extendedBy_emitSetLog (p : BitVec 6) (v : Bool) (s : State) : s.ExtendedBy (s.emitSetLog p v) := by
  refine ⟨by simp, _, State.emitSetLog_trace s p v, ?_, ?_⟩ <;> intro h <;> simp [h]

/-- A DECIDE record needs L_VERB 1 (R232). -/
theorem State.extendedBy_emitDecision (t : Word) (d : Decision) (perc : BitVec 7) (sleep : Bool) (s : State) :
    s.ExtendedBy (s.emitDecision t d perc sleep) := by
  refine ⟨by simp, _, State.emitDecision_trace s t d perc sleep, ?_, ?_⟩ <;> intro h <;> simp [h]

/-- A terminating step adds neither an action nor a record before its `Close()` is answered. -/
theorem State.ExtendedBy.terminate {s t before : State} {kind : EndKind} (h : s.ExtendedBy t) :
    s.ExtendedBy (State.terminate kind before t) := by
  simpa [State.ExtendedBy] using h

theorem State.ExtendedBy.raiseFault {s t before : State} {code : FaultCode} (h : s.ExtendedBy t) :
    s.ExtendedBy (t.raiseFault code before) :=
  h.terminate

/-- A `Set` answered ok adds its action, and a SETLOG record if L_VERB asks for one. -/
theorem State.extendedBy_driven (p : BitVec 6) (v : Bool) (s : State) : s.ExtendedBy (s.driven p v) :=
  State.ExtendedBy.trans (t := { s.land.record (.setPin p v) .ok with
      line := v, lvalid := true, setDone := true, pins := pinPut p.toNat v s.pins })
    (.of_append rfl rfl) rfl (State.extendedBy_emitSetLog p v _)

@[simp] theorem State.driven_lVerb (p : BitVec 6) (v : Bool) (s : State) : (s.driven p v).lVerb = s.lVerb :=
  State.emitSetLog_lVerb _ p v

/-! ### The computation after a response -/

/-- The state the computation after a response has reached, before the step settles. -/
def Progress.reached : Progress → State
  | .goto _ s => s
  | .finished s => s

/-- The whole of an answered action: its effect extends `s` to `t`, the computation goes on from `t`, and the step settles. -/
theorem State.ExtendedBy.settle {s t before : State} {p : Progress} (hp : t.ExtendedBy p.reached) (hst : s.ExtendedBy t)
    (hv : t.lVerb = s.lVerb) : s.ExtendedBy (p.settle before) := by
  have hreached : s.ExtendedBy p.reached := hst.trans hv hp
  obtain ⟨l, u, rfl, hs⟩ | ⟨u, rfl, hs⟩ := Progress.settle_cases before p <;> rw [hs]
  · exact hreached
  · exact hreached.terminate

/-- A computation that leaves observation and trace extended, wherever it starts. -/
def ExtendingNext (next : State → Progress) : Prop := ∀ s : State, s.ExtendedBy (next s).reached

theorem extendingNext_goto (l : State → Label) : ExtendingNext fun s => .goto (l s) s := fun _ => .of_eq rfl rfl

theorem extendingNext_finished : ExtendingNext .finished := fun _ => .of_eq rfl rfl

theorem extendingNext_waitOr (n : Nat) (l : Label) {skipped : State → Progress} (h : ExtendingNext skipped) :
    ExtendingNext (waitOr n l skipped) := by
  intro s
  unfold waitOr
  split
  · exact h s
  · exact .of_eq rfl rfl

theorem extendingNext_hystDecide (d : State → Decision) : ExtendingNext fun s => hystDecide (d s) s :=
  fun s => State.extendedBy_emitDecision s.temp (d s) 0 false s

theorem extendingNext_hystAfterTread (t : Word) : ExtendingNext (hystAfterTread t) := by
  intro s
  unfold hystAfterTread
  split
  · exact extendingNext_hystDecide (fun _ => .skip) s
  · exact .of_eq rfl rfl

theorem extendingNext_hystAfterGet (g : Bool) : ExtendingNext (hystAfterGet g) := by
  intro s
  unfold hystAfterGet
  split
  · exact .of_eq rfl rfl
  · split
    · exact .of_eq rfl rfl
    · exact extendingNext_hystDecide (fun _ => .noChange) s

theorem extendingNext_thermoElapsed (n : Nat) : ExtendingNext (thermoElapsed n) := by
  intro s
  obtain ⟨u, -, ⟨-, h⟩ | ⟨-, h⟩⟩ := thermoElapsed_cases n s
  · rw [h]; exact .of_eq rfl rfl
  · rw [h]; exact .of_eq rfl rfl

theorem extendingNext_thermoAfterTread (t : Word) : ExtendingNext (thermoAfterTread t) := by
  intro s
  obtain ⟨perc, sleep, h⟩ := evaluate_snd_eq t s
  have hstart : s.ExtendedBy { (evaluate t s).2 with usec := 0 } := by rw [h]; exact .of_eq rfl rfl
  exact hstart.trans (by rw [h]) (State.extendedBy_emitDecision t _ _ _ _)

theorem extendingNext_thermoAfterGet (g : Bool) : ExtendingNext (thermoAfterGet g) := by
  intro s
  unfold thermoAfterGet
  split
  · exact .of_eq rfl rfl
  · exact .of_eq rfl rfl

/-! ### The plans -/

/-- Whatever the response of the stage's action, the computation after it extends observation and trace. -/
def Stage.Extending : Stage → Prop
  | .openCtl next => ExtendingNext next
  | .cfgPin _ next => ExtendingNext next
  | .setPin _ _ next => ExtendingNext next
  | .getPin _ next => ∀ g, ExtendingNext (next g)
  | .bindSensor next => ExtendingNext next
  | .readTemp next => ∀ t, ExtendingNext (next t)
  | .wait _ next => ExtendingNext next

/-- Every stage of a plan is extending, at whatever state and label. -/
def PlanExtending (plan : State → Label → Option Stage) : Prop := ∀ s l, ∀ stage ∈ plan s l, stage.Extending

theorem pulseStage_extending (d : Nat) (s : State) {ret : State → Progress} (h : ExtendingNext ret) (l : Label) :
    ∀ stage ∈ pulseStage d s ret l, stage.Extending := by
  intro stage hs
  cases l <;> cases hs
  case puSetH => exact extendingNext_waitOr _ _ (extendingNext_goto _)
  case puWaitH => exact extendingNext_goto _
  case puSetL => exact extendingNext_waitOr _ _ h
  case puWaitL => exact h

theorem planExtending_pulse : PlanExtending pulsePlan := by
  intro s l stage hs
  unfold pulsePlan at hs
  split at hs
  · cases hs; exact extendingNext_goto _
  · cases hs; exact extendingNext_goto _
  · exact pulseStage_extending s.duty s extendingNext_finished _ stage hs

theorem planExtending_fixed : PlanExtending fixedPlan := by
  intro s l stage hs
  unfold fixedPlan at hs
  split at hs
  · cases hs; exact extendingNext_goto _
  · cases hs; exact extendingNext_goto _
  · cases hs; exact extendingNext_finished
  · exact pulseStage_extending s.duty s (extendingNext_goto _) _ stage hs

theorem planExtending_hyst : PlanExtending hystPlan := by
  intro s l stage hs
  cases l <;> cases hs
  case pOpen => exact extendingNext_goto _
  case pCfg => exact extendingNext_goto _
  case hyBind => exact extendingNext_goto _
  case hyTread => exact extendingNext_hystAfterTread
  case hyGet => exact extendingNext_hystAfterGet
  case hySet => exact extendingNext_hystDecide fun s => if s.hystLevel then .on else .off
  case hyWait => exact extendingNext_goto _

theorem planExtending_thermo : PlanExtending thermoPlan := by
  intro s l stage hs
  unfold thermoPlan at hs
  split at hs
  · cases hs; exact extendingNext_goto _
  · cases hs; exact extendingNext_goto _
  · cases hs; exact extendingNext_thermoAfterGet
  · cases hs; exact extendingNext_goto _
  · cases hs; exact extendingNext_thermoElapsed _
  · cases hs; exact extendingNext_goto _
  · cases hs; exact extendingNext_thermoAfterTread
  · exact pulseStage_extending s.perc.toNat s (extendingNext_thermoElapsed _) _ stage hs

theorem planExtending_rpin : PlanExtending rpinPlan := by
  intro s l stage hs
  cases l <;> cases hs
  case pOpen => exact extendingNext_goto _
  case rpGet => exact fun _ => extendingNext_finished

theorem planExtending_rtemp : PlanExtending rtempPlan := by
  intro s l stage hs
  cases l <;> cases hs
  case rtBind => exact extendingNext_goto _
  case rtTread => exact fun _ => extendingNext_finished

theorem planExtending_noPlan : PlanExtending noPlan := by
  intro s l stage hs
  cases hs

theorem planExtending_planOf (op : BitVec 4) : PlanExtending (planOf op) := by
  unfold planOf
  split_ifs
  · exact planExtending_fixed
  · exact planExtending_hyst
  · exact planExtending_thermo
  · exact planExtending_rpin
  · exact planExtending_rtemp
  · exact planExtending_pulse
  · exact planExtending_noPlan

/-! ### The responses -/

theorem extendedBy_onGpio {stage : Stage} (h : stage.Extending) (ok level : Bool) (s : State) :
    s.ExtendedBy (stage.onGpio ok level s) := by
  obtain ⟨next, rfl, -, hs⟩ | ⟨next, rfl, -, hs⟩ | ⟨p, next, rfl, -, hs⟩ | ⟨p, next, rfl, -, hs⟩ |
    ⟨p, v, next, rfl, -, hs⟩ | ⟨p, v, next, rfl, -, hs⟩ | ⟨p, next, rfl, -, hs⟩ | ⟨p, next, rfl, -, hs⟩ | ⟨hs, -⟩ :=
    onGpio_cases ok level s stage <;> rw [hs]
  · exact State.ExtendedBy.settle (h s.opened) (.of_append rfl rfl) rfl
  · exact State.ExtendedBy.raiseFault (.of_append rfl rfl)
  · exact State.ExtendedBy.settle (h (s.configured p)) (.of_append rfl rfl) rfl
  · exact State.ExtendedBy.raiseFault (.of_append rfl rfl)
  · exact State.ExtendedBy.settle (h (s.driven p v)) (State.extendedBy_driven p v s) (State.driven_lVerb p v s)
  · exact State.ExtendedBy.raiseFault (.of_append rfl rfl)
  · exact State.ExtendedBy.settle (h _ (s.sampled p (s.readback p level))) (.of_append rfl rfl) rfl
  · exact State.ExtendedBy.raiseFault (.of_append rfl rfl)
  · exact .of_eq rfl rfl

theorem extendedBy_onSensor {stage : Stage} (h : stage.Extending) (ok : Bool) (r : Word) (s : State) :
    s.ExtendedBy (stage.onSensor ok r s) := by
  obtain ⟨next, rfl, -, hs⟩ | ⟨next, rfl, -, hs⟩ | ⟨next, rfl, hs⟩ | ⟨hs, -⟩ := onSensor_cases ok r s stage <;> rw [hs]
  · exact State.ExtendedBy.settle (h s.bound) (.of_append rfl rfl) rfl
  · exact State.ExtendedBy.raiseFault (.of_append rfl rfl)
  · exact State.ExtendedBy.settle (h r (s.temperature r)) (.of_append rfl rfl) rfl
  · exact .of_eq rfl rfl

theorem extendedBy_waitTick {next : State → Progress} (h : ExtendingNext next) (n : Nat) (s : State) :
    s.ExtendedBy (s.waitTick n next) := by
  obtain ⟨-, hs⟩ | ⟨-, -, hs⟩ | ⟨-, -, hs⟩ := waitTick_cases n next s <;> rw [hs]
  · exact State.ExtendedBy.settle (h (s.waited n)) (.of_append rfl rfl) rfl
  · exact .of_append rfl rfl
  · exact .of_eq rfl rfl

theorem State.extendedBy_closeAnswered (s : State) : s.ExtendedBy s.closeAnswered := by
  obtain ⟨e, -, hs⟩ | ⟨-, hs⟩ := State.closeAnswered_cases s <;> rw [hs]
  · exact .of_append (new := [⟨.closeCtl, .ok⟩]) (by simp [State.closed_eq]) (by simp [State.closed_eq])
  · exact .of_eq rfl rfl

theorem State.extendedBy_launchAction (a : Action) (s : State) : s.ExtendedBy (s.launchAction a) := by
  cases a <;> exact .of_eq rfl rfl

/-! ### The host's side -/

theorem State.extendedBy_issue (w : Word) (valid : Bool) (entry : Label) (s : State) :
    s.ExtendedBy (s.issue w valid entry) := by
  obtain ⟨-, hs⟩ | ⟨-, -, hs⟩ | ⟨-, -, hs⟩ := issue_cases w valid entry s <;> rw [hs]
  · exact .of_eq rfl rfl
  · exact .of_eq rfl rfl
  · exact State.ExtendedBy.raiseFault (.of_eq rfl rfl)

theorem State.extendedBy_requestStop (s : State) : s.ExtendedBy s.requestStop := by
  unfold State.requestStop
  split
  · exact .of_eq rfl rfl
  · exact .of_eq rfl rfl

theorem State.extendedBy_hostRead (off : BitVec 5) (size : Nat) (s : State) : s.ExtendedBy (s.hostRead off size) := by
  unfold State.hostRead
  split
  · exact .of_eq rfl rfl
  · exact .of_eq rfl rfl

theorem State.extendedBy_hostWrite (off : BitVec 5) (size : Nat) (w : Word) (s : State) :
    s.ExtendedBy (s.hostWrite off size w) := by
  unfold State.hostWrite
  split
  · split
    · exact .of_eq rfl rfl
    · exact .of_eq rfl rfl
  · exact .of_eq rfl rfl

/-- Reset cuts the action in flight short and keeps what was observed before (log entry 12). -/
theorem State.extendedBy_resetNow (s : State) : s.ExtendedBy s.resetNow := .of_append rfl rfl

/-! ### Every step -/

/-- Taking the input first changes neither observation, trace nor L_VERB. -/
theorem State.ExtendedBy.of_popInput {s t : State} (h : s.popInput.ExtendedBy t) : s.ExtendedBy t := h

theorem runCommand_extendedBy {plan : State → Label → Option Stage} (hp : PlanExtending plan) {s t : State}
    (h : runCommand plan s = .next t) : s.ExtendedBy t := by
  apply State.ExtendedBy.of_popInput
  obtain ⟨-, -, stage, -, rfl⟩ | ⟨ok, level, -, -, rfl⟩ | ⟨ok, level, a, stage, -, -, -, hs, rfl⟩ |
    ⟨ok, r, a, stage, -, -, -, hs, rfl⟩ | ⟨m, n, next, -, -, hs, rfl⟩ | rfl := runCommand_next h
  · exact State.extendedBy_launchAction stage.action _
  · exact State.extendedBy_closeAnswered _
  · exact extendedBy_onGpio (hp s s.seq stage hs) ok level _
  · exact extendedBy_onSensor (hp s s.seq stage hs) ok r _
  · exact extendedBy_waitTick (hp s s.seq _ hs) n _
  · exact .of_eq rfl rfl

theorem execStop_extendedBy {pin freq : BitVec 6} {arg : BitVec 16} {s t : State} (h : execStop pin freq arg s = .next t) :
    s.ExtendedBy t := by
  apply State.ExtendedBy.of_popInput
  obtain ⟨a, rest, -, hstop⟩ | hhost := execStop_cases pin freq arg s
  · obtain rfl : s.popInput.requestStop = t := by simpa [hstop] using h
    exact State.extendedBy_requestStop _
  · obtain ⟨-, -, -, -, rfl⟩ | ⟨ok, level, -, -, rfl⟩ | rfl := execStop_next hhost h
    · exact State.ExtendedBy.terminate (.of_eq rfl rfl)
    · exact State.extendedBy_closeAnswered _
    · exact .of_eq rfl rfl

theorem exec_extendedBy {i : Instr} {s t : State} (h : exec i s = .next t) : s.ExtendedBy t := by
  obtain ⟨pin, freq, arg, -, hexec⟩ | ⟨valid, entry, hexec⟩ := exec_cases i <;> rw [hexec] at h
  · exact execStop_extendedBy h
  · obtain ⟨a, rest, -, hissue⟩ | ⟨-, hrun⟩ := command_cases i valid entry (planOf (Laws.opcode i)) s
    · obtain rfl : s.popInput.issue (encode i) valid entry = t := by simpa [hissue] using h
      exact .of_popInput (State.extendedBy_issue _ _ _ _)
    · exact runCommand_extendedBy (planExtending_planOf _) (hrun ▸ h)

theorem step_extendedBy {s t : State} (h : step s = .next t) : s.ExtendedBy t := by
  obtain ⟨rest, -, hs⟩ | ⟨a, rest, w, -, -, hs⟩ | ⟨off, size, rest, -, hs⟩ | ⟨off, size, w, rest, -, -, hs⟩ |
    ⟨-, -, -, hs⟩ | ⟨-, -, -, hs⟩ := step_cases s <;> rw [hs] at h
  · cases h
    exact .of_popInput (State.extendedBy_resetNow _)
  · exact exec_extendedBy h
  · cases h
    exact .of_popInput (State.extendedBy_hostRead off size _)
  · cases h
    exact .of_popInput (State.extendedBy_hostWrite off size w _)
  · exact exec_extendedBy h
  · cases h
    exact .of_eq rfl rfl

/-- Settles O33: every operation a step is made of extends the observation and the trace. -/
theorem observationOnlyGrows : Obligations.ObservationOnlyGrows := by
  intro s t h
  exact step_extendedBy h

end Sys2Proof.Machine
end

section
/-! The register window: which slot an access reaches, what the register words hold, and which command a CMD write runs
(O7, O12, O21, O22). -/

namespace Sys2Proof.Machine

/-! ### Register words -/

/-- Appended fields add up at their places. -/
theorem toNat_append_eq_add {m n : Nat} (x : BitVec m) (y : BitVec n) : (x ++ y).toNat = x.toNat * 2 ^ n + y.toNat := by
  rw [BitVec.toNat_append, ← Nat.shiftLeft_add_eq_or_of_lt y.isLt, Nat.shiftLeft_eq]

@[simp] theorem toNat_bit (b : Bool) : (bit b).toNat = b.toNat := by cases b <;> rfl

theorem BlockState.toNat_code (b : BlockState) :
    b.code.toNat = match b with | .idle => 0 | .busy => 1 | .done => 2 | .stopped => 3 | .fault => 4 := by
  cases b <;> rfl

theorem FaultCode.toNat_code (f : FaultCode) :
    f.code.toNat = match f with | .none => 0 | .sensor => 1 | .openFail => 2 | .cfgFail => 3 | .io => 4 | .usage => 5 := by
  cases f <;> rfl

theorem State.toNat_statusWord (s : State) {a b : Nat} (hstate : s.state.code.toNat = a) (hfcode : s.fcode.code.toNat = b) :
    s.statusWord.toNat = a + 8 * s.held.toNat + 16 * s.sbound.toNat + 32 * s.line.toNat
      + 64 * s.lvalid.toNat + 128 * s.sleep.toNat + 256 * b + 4096 * s.rej.toNat
      + 65536 * s.perc.toNat := by
  simp only [State.statusWord, toNat_append_eq_add, toNat_bit, BitVec.toNat_ofNat, hstate, hfcode]
  omega

theorem State.toNat_ctrlWord (s : State) : s.ctrlWord.toNat = s.verb.toNat + 4 * s.sfilt.toNat := by
  simp only [State.ctrlWord, toNat_append_eq_add, toNat_bit, BitVec.toNat_ofNat]
  omega

theorem State.toNat_usecWord (s : State) : s.usecWord.toNat = s.usec.toNat := by
  simp only [State.usecWord, toNat_append_eq_add, BitVec.toNat_ofNat]
  omega

/-- What a CTRL write stores reads back as the low three bits of the word (R31). -/
theorem State.ctrlWord_writeCtrl (w : Word) (s : State) : (s.writeCtrl w).ctrlWord = w &&& 7 := by
  apply BitVec.eq_of_toNat_eq
  have hmask : (w &&& 7).toNat = w.toNat % 8 := Nat.and_two_pow_sub_one_eq_mod w.toNat 3
  have hverb : (w.extractLsb' 0 2).toNat = w.toNat % 4 := by simp
  have hsfilt : (w.getLsbD 2).toNat = w.toNat / 4 % 2 := Nat.toNat_testBit w.toNat 2
  rw [State.toNat_ctrlWord, hmask]
  show (w.extractLsb' 0 2).toNat + 4 * (w.getLsbD 2).toNat = _
  rw [hverb, hsfilt]
  omega

/-! ### Accesses to the window -/

/-- What a read of each aligned offset returns (R20, R34). -/
theorem State.readSlot_slotOf (s : State) (off : BitVec 5) (h : off.toNat % 4 = 0) :
    s.readSlot (slotOf off) = match off.toNat with
      | 0x00 => s.cmdLat
      | 0x04 => s.statusWord
      | 0x08 => s.ctrlWord
      | 0x0C => s.temp
      | 0x10 => s.usecWord
      | _ => 0 := by
  obtain ⟨k, hk, rfl⟩ : ∃ k < 32, off = BitVec.ofNat 5 k := ⟨off.toNat, off.isLt, by simp⟩
  rw [BitVec.toNat_ofNat, Nat.mod_eq_of_lt hk] at h ⊢
  obtain rfl | rfl | rfl | rfl | rfl | rfl | rfl | rfl :
    k = 0 ∨ k = 4 ∨ k = 8 ∨ k = 12 ∨ k = 16 ∨ k = 20 ∨ k = 24 ∨ k = 28 := by omega
  all_goals rfl

theorem step_read {s : State} {off : BitVec 5} {size : Nat} {rest : List Input}
    (hin : s.inputs = .host (.read off size) :: rest) : step s = .next (s.popInput.hostRead off size) := by
  unfold step; rw [hin]; rfl

/-- An accepted read changes the bus answer only (R54, R55). -/
theorem step_read_aligned {s : State} {off : BitVec 5} {rest : List Input} (hin : s.inputs = .host (.read off 4) :: rest)
    (halign : off.toNat % 4 = 0) {v : Word} (hv : s.readSlot (slotOf off) = v) :
    step s = .next { s with bus := .data v, inputs := rest } := by
  have hread : s.popInput.readSlot (slotOf off) = v := by rw [← hv]; cases slotOf off <;> rfl
  rw [step_read hin, State.hostRead, if_pos (by simp [accessOk, halign]), hread]
  simp [State.popInput, hin]

/-- A write that is no CMD write acts on the window. -/
theorem step_write {s : State} {off : BitVec 5} {size : Nat} {w : Word} {rest : List Input}
    (hin : s.inputs = .host (.write off size w) :: rest) (hcmd : HostAccess.cmdWord (.write off size w) = none) :
    step s = .next (s.popInput.hostWrite off size w) := by
  unfold step; rw [hin]; dsimp only; rw [hcmd]

/-- A CMD write runs the command of its word (R21). -/
theorem step_cmdWrite {s : State} {w : Word} {rest : List Input} (hin : s.inputs = .host (.write 0 4 w) :: rest) :
    step s = exec (decodeWord w) s := by
  unfold step; rw [hin]; rfl

/-- The slots a write leaves alone (R34, R55). -/
theorem slotOf_readOnly {off : BitVec 5} (h : off ∈ ([0x04, 0x0C, 0x10, 0x14, 0x18, 0x1C] : List (BitVec 5))) :
    accessOk off 4 = true ∧ slotOf off ≠ .cmd ∧ slotOf off ≠ .ctrl := by
  revert off; decide

theorem cmdWord_write_of_slot_ne {off : BitVec 5} {size : Nat} {w : Word} (h : slotOf off ≠ .cmd) :
    HostAccess.cmdWord (.write off size w) = none := by
  simp [HostAccess.cmdWord, h]

/-! ### The statements -/

/-- Settles O7, by evaluation of the reset state. -/
theorem resetValues : Obligations.ResetValues := by
  unfold Obligations.ResetValues
  decide

/-- Settles O21: the appended fields add up. -/
theorem registerLayouts : Obligations.RegisterLayouts := by
  intro s
  exact ⟨s.toNat_statusWord s.state.toNat_code s.fcode.toNat_code, s.toNat_ctrlWord, s.toNat_usecWord⟩

/-- Settles O12: the four lanes of a word decode to the command of the word. -/
theorem cmdWriteRunsTheDecodedCommand : Obligations.CmdWriteRunsTheDecodedCommand := by
  intro s w i rest hdecode hin
  have hword : decode (lanes w) = .ok (decodeWord w, []) := by simpa using decode_lanes w []
  obtain rfl : decodeWord w = i := by simpa [hword] using hdecode
  exact step_cmdWrite hin

/-- Settles O22: reads, the CTRL write, and writes to the slots that ignore them. -/
theorem windowAccessesReachTheirSlot : Obligations.WindowAccessesReachTheirSlot := by
  intro s off w rest
  refine ⟨fun hin halign => ?_, fun hin hoff => ?_, fun hin hoff => ?_⟩
  · exact step_read_aligned hin halign (s.readSlot_slotOf off halign)
  · subst hoff
    refine ⟨s.popInput.writeCtrl w, step_write hin rfl, ?_, State.ctrlWord_writeCtrl w _⟩
    simp [State.writeCtrl, State.popInput, hin]
  · obtain ⟨hok, hcmd, hctrl⟩ := slotOf_readOnly hoff
    rw [step_write hin (cmdWord_write_of_slot_ne hcmd)]
    simp [State.hostWrite, hok, hctrl, State.popInput, hin]

end Sys2Proof.Machine
end

section
/-! The invariant by phase. Outside BUSY it is one record of facts (`State.Ended`). While BUSY it has three independent parts: what
holds whatever the label (`State.Running`), what the label asks for (`State.FitsAt`, a table), and where the step stands
(`State.Phase`: at a step boundary, awaiting the named action's answer, or awaiting a terminating step's `Close()`). -/

namespace Sys2Proof.Machine

/-! ### The action of a label (R37) -/

/-- The duty of the pulse labels: PERC for THERMO, the latched duty otherwise. -/
def State.pulseDuty (s : State) : Nat := if s.lOp = 3 then s.perc.toNat else s.duty

/-- The port action of each label, for the command in the latches. `IDLE` has none; its entry is never used. -/
def State.actionAt (s : State) : Label → Action
  | .idle => .closeCtl
  | .pOpen => .openCtl
  | .pCfg => .cfgPin s.lPin
  | .puSetH => .setPin s.lPin true
  | .puWaitH => .wait (tHigh s.pulseDuty s.freqHz)
  | .puSetL => .setPin s.lPin false
  | .puWaitL => .wait (tLow s.pulseDuty s.freqHz)
  | .fxSet => .setPin s.lPin (decide (s.duty = 100))
  | .hyBind => .bindSensor
  | .hyTread => .readTemp
  | .hyGet => .getPin s.lPin
  | .hySet => .setPin s.lPin s.hystLevel
  | .hyWait => .wait hystTick
  | .thGet => .getPin s.lPin
  | .thSet => .setPin s.lPin s.ensureLevel
  | .thWait => .wait window
  | .thBind => .bindSensor
  | .thTread => .readTemp
  | .rpGet => .getPin s.lPin
  | .rtBind => .bindSensor
  | .rtTread => .readTemp

/-- The operations that use a label (R37, column "used by"). -/
def usersOf : Label → List (BitVec 4)
  | .idle => []
  | .pOpen => [1, 2, 3, 4, 6]
  | .pCfg => [1, 2, 3, 6]
  | .puSetH | .puWaitH | .puSetL | .puWaitL => [1, 3, 6]
  | .fxSet => [1]
  | .hyBind | .hyTread | .hyGet | .hySet | .hyWait => [2]
  | .thGet | .thSet | .thWait | .thBind | .thTread => [3]
  | .rpGet => [4]
  | .rtBind | .rtTread => [5]

theorem mem_labelsOf_iff (l : Label) (op : BitVec 4) : l ∈ labelsOf op ↔ op ∈ usersOf l := by
  revert op
  cases l <;> decide

theorem fixedPlan_action (s : State) (h : s.pulseDuty = s.duty) (l : Label) :
    (fixedPlan s l).map Stage.action = if l ∈ labelsOf 1 then some (s.actionAt l) else none := by
  cases l <;> simp [fixedPlan, labelsOf, pulseStage, Stage.action, State.actionAt, h]

theorem hystPlan_action (s : State) (l : Label) :
    (hystPlan s l).map Stage.action = if l ∈ labelsOf 2 then some (s.actionAt l) else none := by
  cases l <;> simp [hystPlan, labelsOf, Stage.action, State.actionAt]

theorem thermoPlan_action (s : State) (h : s.pulseDuty = s.perc.toNat) (l : Label) :
    (thermoPlan s l).map Stage.action = if l ∈ labelsOf 3 then some (s.actionAt l) else none := by
  cases l <;> simp [thermoPlan, labelsOf, pulseStage, Stage.action, State.actionAt, h]

theorem rpinPlan_action (s : State) (l : Label) :
    (rpinPlan s l).map Stage.action = if l ∈ labelsOf 4 then some (s.actionAt l) else none := by
  cases l <;> simp [rpinPlan, labelsOf, Stage.action, State.actionAt]

theorem rtempPlan_action (s : State) (l : Label) :
    (rtempPlan s l).map Stage.action = if l ∈ labelsOf 5 then some (s.actionAt l) else none := by
  cases l <;> simp [rtempPlan, labelsOf, Stage.action, State.actionAt]

theorem pulsePlan_action (s : State) (h : s.pulseDuty = s.duty) (l : Label) :
    (pulsePlan s l).map Stage.action = if l ∈ labelsOf 6 then some (s.actionAt l) else none := by
  cases l <;> simp [pulsePlan, labelsOf, pulseStage, Stage.action, State.actionAt, h]

/-- OP names one of the six commands with labels, or has neither plan nor label (R78, R79). -/
theorem op_cases (op : BitVec 4) :
    op = 1 ∨ op = 2 ∨ op = 3 ∨ op = 4 ∨ op = 5 ∨ op = 6 ∨ planOf op = noPlan ∧ labelsOf op = [] := by
  by_cases h : op = 1 ∨ op = 2 ∨ op = 3 ∨ op = 4 ∨ op = 5 ∨ op = 6
  · simp only [← or_assoc] at h ⊢
    exact .inl h
  · simp only [not_or] at h
    simp only [planOf, labelsOf, h, if_false, false_or, and_self]

/-- A plan has a stage exactly at the labels of its operation, and the stage's action is the label's. -/
theorem planOf_action (s : State) (l : Label) :
    (planOf s.lOp s l).map Stage.action = if l ∈ labelsOf s.lOp then some (s.actionAt l) else none := by
  have hduty : s.lOp ≠ 3 → s.pulseDuty = s.duty := fun h => if_neg h
  obtain h | h | h | h | h | h | ⟨hplan, hlabels⟩ := op_cases s.lOp
  · rw [h]; exact fixedPlan_action s (hduty (by simp [h])) l
  · rw [h]; exact hystPlan_action s l
  · rw [h]; exact thermoPlan_action s (if_pos h) l
  · rw [h]; exact rpinPlan_action s l
  · rw [h]; exact rtempPlan_action s l
  · rw [h]; exact pulsePlan_action s (hduty (by simp [h])) l
  · rw [hplan, hlabels]; rfl

theorem State.named_eq (s : State) : s.named = if s.seq ∈ labelsOf s.lOp then some (s.actionAt s.seq) else none :=
  planOf_action s s.seq

/-! ### What holds in every phase -/

/-- What the invariant says of the registers in every state. -/
structure State.RegistersOk (s : State) : Prop where
  thermo : s.thermoInRange
  latches : s.latchesFit
  cleared : s.lOp ≠ 3 → s.usec = 0 ∧ s.perc = 0
  pins : pinsWf s.pins = true
  line : s.lvalid = false → s.line = false

/-- No action in flight, no terminating step under way, no wait. -/
structure State.AtBoundary (s : State) : Prop where
  inFlight : s.inFlight = none
  ending : s.ending = none
  wrem : s.wrem = 0

/-- The invariant outside BUSY. -/
structure State.Ended (s : State) : Prop where
  notBusy : s.state ≠ .busy
  registers : s.RegistersOk
  boundary : s.AtBoundary
  seq : s.seq = .idle
  held : s.held = false
  stopReq : s.stopReq = false
  code : s.codeIffFault
  sleep : s.sleep = true → s.lOp = 3 ∧ (s.state = .stopped ∨ s.state = .fault)

theorem State.Ended.inv {s : State} (h : s.Ended) : s.Inv where
  legal := by
    have hsleep : s.sleepIsThermo := fun hs => ⟨(h.sleep hs).1, .inr (h.sleep hs).2⟩
    exact ⟨fun _ => ⟨h.seq, h.held, h.boundary.wrem, h.stopReq⟩, by simp [h.held], h.code, h.registers.thermo, hsleep⟩
  label hb := absurd hb h.notBusy
  operands hb := absurd hb h.notBusy
  latches := h.registers.latches
  flight := ⟨fun hf => absurd h.boundary.inFlight hf, by rw [h.boundary.inFlight, h.boundary.wrem]; rfl⟩
  ending := by unfold State.endingFits State.endingOk; rw [h.boundary.ending]
  waits hb := absurd hb h.notBusy
  handle hb := absurd hb h.notBusy
  bind hb := absurd hb h.notBusy
  window := ⟨h.registers.cleared, fun hb => absurd hb h.notBusy⟩
  branch hb := absurd hb h.notBusy
  switch hb := absurd hb h.notBusy
  lines := ⟨h.registers.pins, fun hb => absurd hb h.notBusy, h.registers.line⟩

theorem State.Inv.registers {s : State} (h : s.Inv) : s.RegistersOk := by
  obtain ⟨-, -, -, hthermo, -⟩ := h.legal
  obtain ⟨hcleared, -⟩ := h.window
  obtain ⟨hpins, -, hline⟩ := h.lines
  exact ⟨hthermo, h.latches, hcleared, hpins, hline⟩

/-- A terminating step under way, spelled out. -/
theorem State.endingFits_iff (s : State) : s.endingFits ↔ ∀ e, s.ending = some e →
    s.state = .busy ∧ s.inFlight = some .closeCtl ∧ s.held = true ∧ e.kind.fits s.lOp = true ∧
      (e.lvalid = false → e.line = false) := by
  unfold State.endingFits State.endingOk
  cases s.ending with
  | none => simp
  | some e => simp [and_assoc, Bool.or_eq_true]; grind

theorem State.Inv.ended {s : State} (h : s.Inv) (hb : s.state ≠ .busy) : s.Ended := by
  obtain ⟨hrest, -, hcode, -, hsleep⟩ := h.legal
  obtain ⟨hseq, hheld, hwrem, hstop⟩ := hrest hb
  obtain ⟨hbusy, -⟩ := h.flight
  have hflight : s.inFlight = none := by_contra fun hf => hb (hbusy hf).1
  have hending : s.ending = none := Option.eq_none_iff_forall_ne_some.mpr fun e he =>
    hb ((s.endingFits_iff.mp h.ending) e he).1
  exact ⟨hb, h.registers, ⟨hflight, hending, hwrem⟩, hseq, hheld, hstop, hcode,
    fun hs => ⟨(hsleep hs).1, (hsleep hs).2.resolve_left hb⟩⟩

/-! ### While BUSY -/

/-- What the invariant says of a running command, whatever its label and phase. -/
structure State.Running (s : State) : Prop where
  busy : s.state = .busy
  registers : s.RegistersOk
  code : s.fcode = .none
  sleep : s.sleep = true → s.lOp = 3
  operands : s.operandsFit

/-- The branch of a THERMO iteration the pulse labels belong to (R171, R173). -/
def State.pulses (s : State) : Prop := s.lOp = 3 → s.sleep = false ∧ s.perc.toNat < 100

/-- There is room in the window for one more iteration (R175). -/
def State.hasRoom (s : State) : Prop := s.usec.toNat < 1000000

/-- What each label asks for: the operation, the handle, the sensor, the window, the branch. -/
def State.FitsAt (s : State) (l : Label) : Prop :=
  s.lOp ∈ usersOf l ∧
  match l with
  | .idle => False
  | .pOpen => s.held = false ∧ s.hasRoom ∧ (s.lOp = 3 → s.sleep = false)
  | .pCfg => s.held = true ∧ s.hasRoom ∧ (s.lOp = 3 → s.sleep = false)
  | .puSetH | .puSetL => s.held = true ∧ s.hasRoom ∧ s.pulses
  | .puWaitH | .puWaitL => s.held = true ∧ s.hasRoom ∧ s.pulses ∧ waitBounded (some (s.actionAt l)) = true
  | .fxSet | .hyGet | .hyWait | .rpGet => s.held = true ∧ s.hasRoom
  | .hyBind => s.held = true ∧ s.hasRoom ∧ s.sbound = false
  | .hyTread => s.held = true ∧ s.hasRoom ∧ s.sbound = true
  | .hySet => s.held = true ∧ s.hasRoom ∧ (s.high < s.temp.toInt ∨ s.temp.toInt < s.low)
  | .thGet | .thSet | .thWait => s.held = true ∧ s.hasRoom ∧ (s.sleep = true ∨ s.perc.toNat = 100)
  | .thBind => s.held = true ∧ s.sbound = false
  | .thTread => s.held = true ∧ s.sbound = true
  | .rtBind => s.held = false ∧ s.hasRoom ∧ s.sbound = false
  | .rtTread => s.held = false ∧ s.hasRoom ∧ s.sbound = true

/-- The table says of SEQ what the invariant's label clauses say together. -/
theorem State.fitsAt_seq_iff {s : State} (hb : s.state = .busy) : s.FitsAt s.seq ↔
    s.labelFits ∧ s.waitFits ∧ s.handleFits ∧ s.boundFits ∧
      (s.state = .busy → s.seq ∉ [Label.thBind, .thTread] → s.usec.toNat < 1000000) ∧ s.branchFits ∧ s.switchFits := by
  unfold State.labelFits State.waitFits State.handleFits State.boundFits State.branchFits State.switchFits
  simp only [State.named_eq, mem_labelsOf_iff, hb, State.FitsAt, State.pulses, State.hasRoom, true_implies]
  by_cases hop : s.lOp ∈ usersOf s.seq
  -- a label of the command: row by row, both sides come down to the entries of the row
  · rw [if_pos hop]
    revert hop
    cases s.seq <;> intro hop <;> simp [usersOf] at hop <;>
      simp [usersOf, hop, waitBounded, State.actionAt, hystTick, window] <;> grind
  · simp [hop]

/-- The labels that come before every successful `Set` of their command. -/
abbrev precedesSet (l : Label) : Prop := l ∈ [Label.pOpen, .pCfg, .fxSet, .rpGet, .rtBind, .rtTread]

/-- Once a `Set` of this command has succeeded, its line is known, and no label comes that precedes it (R105). -/
def State.LineFits (s : State) (l : Label) : Prop :=
  s.setDone = true → (pinLevel s.lPin.toNat s.pins).isSome = true ∧ ¬ precedesSet l

/-- The action of SEQ is in flight. -/
structure State.Awaiting (s : State) : Prop where
  inFlight : s.inFlight = some (s.actionAt s.seq)
  ending : s.ending = none
  wrem : wremFits (some (s.actionAt s.seq)) s.wrem.toNat = true

/-- The `Close()` of the terminating step `e` is in flight. -/
structure State.Closing (s : State) (e : Ending) : Prop where
  inFlight : s.inFlight = some .closeCtl
  ending : s.ending = some e
  wrem : s.wrem = 0
  held : s.held = true
  kind : e.kind.fits s.lOp = true
  line : e.lvalid = false → e.line = false

/-- Where the step of a running command stands. -/
inductive State.Phase (s : State) : Prop where
  | boundary (h : s.AtBoundary) (hline : s.LineFits s.seq)
  | awaiting (h : s.Awaiting) (hline : s.LineFits s.seq)
  | closing (e : Ending) (h : s.Closing e)

theorem wremFits_of_no_wait {f : Option Action} (h : ∀ n, f ≠ some (.wait n)) (w : Nat) :
    wremFits f w = true ↔ w = 0 := by
  unfold wremFits
  split
  · next n => exact absurd rfl (h n)
  · simp

/-- The clause of the invariant about the action in flight and the terminating step, by phase. -/
theorem State.phase_iff {s : State} (hb : s.state = .busy) (hlabel : s.seq ∈ labelsOf s.lOp) : s.Phase ↔
    s.flightFits ∧ s.endingFits ∧ (s.ending = none → s.LineFits s.seq) := by
  have hnamed : s.named = some (s.actionAt s.seq) := by rw [State.named_eq, if_pos hlabel]
  rw [State.endingFits_iff]
  constructor
  · rintro (⟨⟨hflight, hending, hwrem⟩, hline⟩ | ⟨⟨hflight, hending, hwrem⟩, hline⟩ |
      ⟨e, hflight, hending, hwrem, hheld, hkind, hel⟩)
    · exact ⟨⟨fun hf => absurd hflight hf, by rw [hflight, hwrem]; rfl⟩, by simp [hending], fun _ => hline⟩
    · have hsame : s.inFlight = if s.ending = none then s.named else some .closeCtl := by
        rw [hending, if_pos rfl, hnamed, hflight]
      exact ⟨⟨fun _ => ⟨hb, hsame⟩, by rw [hflight]; exact hwrem⟩, by simp [hending], fun _ => hline⟩
    · refine ⟨⟨fun _ => ⟨hb, by simp [hending, hflight]⟩, by rw [hflight, hwrem]; rfl⟩, ?_, by simp [hending]⟩
      rintro e' he'
      obtain rfl : e = e' := by simpa [hending] using he'
      exact ⟨hb, hflight, hheld, hkind, hel⟩
  · rintro ⟨⟨hflight, hwrem⟩, hending, hline⟩
    cases he : s.ending with
    | some e =>
      obtain ⟨-, hclose, hheld, hkind, hel⟩ := hending e he
      rw [hclose, wremFits_of_no_wait (by simp)] at hwrem
      exact .closing e ⟨hclose, he, BitVec.eq_of_toNat_eq hwrem, hheld, hkind, hel⟩
    | none =>
      rw [he, if_pos rfl, hnamed] at hflight
      by_cases hf : s.inFlight = none
      · rw [hf, wremFits_of_no_wait (by simp)] at hwrem
        exact .boundary ⟨hf, he, BitVec.eq_of_toNat_eq hwrem⟩ (hline he)
      · obtain ⟨-, hf⟩ := hflight hf
        exact .awaiting ⟨hf, he, hf ▸ hwrem⟩ (hline he)

/-- The invariant while BUSY, in its three parts. -/
theorem State.inv_iff_of_busy {s : State} (hb : s.state = .busy) : s.Inv ↔ s.Running ∧ s.FitsAt s.seq ∧ s.Phase := by
  constructor
  · intro h
    obtain ⟨-, -, hcode, -, hsleep⟩ := h.legal
    obtain ⟨-, hroom⟩ := h.window
    obtain ⟨-, hline, -⟩ := h.lines
    have hcode : s.fcode = .none := by_contra fun hf => by simp [hcode.mp hf] at hb
    refine ⟨⟨hb, h.registers, hcode, fun hs => (hsleep hs).1, h.operands⟩, ?_, ?_⟩
    · exact (State.fitsAt_seq_iff hb).mpr ⟨h.label, h.waits, h.handle, h.bind, hroom, h.branch, h.switch⟩
    · exact (State.phase_iff hb (h.label hb)).mpr ⟨h.flight, h.ending, hline hb⟩
  · rintro ⟨hrun, hfits, hphase⟩
    obtain ⟨hlabel, hwaits, hhandle, hbind, hroom, hbranch, hswitch⟩ := (State.fitsAt_seq_iff hb).mp hfits
    obtain ⟨hflight, hending, hline⟩ := (State.phase_iff hb (hlabel hb)).mp hphase
    exact {
      legal := ⟨fun h => absurd hb h, fun _ => hb, ⟨fun hf => absurd hrun.code hf, fun hf => by simp [hf] at hb⟩,
        hrun.registers.thermo,
        fun hs => ⟨hrun.sleep hs, .inl hb⟩⟩
      label := hlabel
      operands := hrun.operands
      latches := hrun.registers.latches
      flight := hflight
      ending := hending
      waits := hwaits
      handle := hhandle
      bind := hbind
      window := ⟨hrun.registers.cleared, hroom⟩
      branch := hbranch
      switch := hswitch
      lines := ⟨hrun.registers.pins, fun _ => hline, hrun.registers.line⟩ }

end Sys2Proof.Machine
end

section
/-! The computations after a response keep the invariant: from a command that has just taken a response (`State.Landed`), every
stage of every plan goes on at a label the table admits, or ends the command. -/

namespace Sys2Proof.Machine

/-! ### Landed states -/

/-- A running command with nothing in flight: the response of its action has been taken. -/
structure State.Landed (u : State) : Prop where
  running : u.Running
  boundary : u.AtBoundary

section update
variable {s : State} {l : Label} {held sbound line lvalid setDone stopReq rej sfilt : Bool} {temp : Word} {seq : Label}
  {wrem : BitVec 21} {inFlight : Option Action} {ending : Option Ending} {pins : Pins} {verb : BitVec 2} {bus : BusResponse}
  {ticks : Nat} {trace : List TraceRec} {actions : List PortEvent} {inputs : List Input}

/-- What a running command's facts do not mention may change; the pin space and LINE may, within their rules. -/
theorem State.Running.update (h : s.Running) (hpins : pinsWf pins = true) (hline : lvalid = false → line = false) :
    State.Running { s with
      held, sbound, line, lvalid, setDone, stopReq, rej, sfilt, temp, seq, wrem, inFlight, ending, pins, verb, bus, ticks, trace
      actions, inputs } :=
  ⟨h.busy, ⟨h.registers.thermo, h.registers.latches, h.registers.cleared, hpins, hline⟩, h.code, h.sleep, h.operands⟩

/-- The table does not mention the line. -/
theorem State.FitsAt.update (h : s.FitsAt l) :
    State.FitsAt { s with
      line, lvalid, setDone, stopReq, rej, sfilt, wrem, inFlight, ending, pins, verb, bus, ticks, trace, actions, inputs } l := h

theorem State.LineFits.update (h : s.LineFits l) :
    State.LineFits { s with
      held, sbound, line, lvalid, stopReq, rej, sfilt, temp, wrem, inFlight, ending, verb, bus, ticks, trace, actions
      inputs } l := h

end update

theorem State.emitDecision_eq (t : Word) (d : Decision) (perc : BitVec 7) (sleep : Bool) (s : State) :
    ∃ trace, s.emitDecision t d perc sleep = { s with trace } := by
  unfold State.emitDecision
  split
  · exact ⟨_, rfl⟩
  · exact ⟨_, rfl⟩

theorem State.emitSetLog_eq (p : BitVec 6) (v : Bool) (s : State) : ∃ trace, s.emitSetLog p v = { s with trace } := by
  unfold State.emitSetLog
  split
  · exact ⟨_, rfl⟩
  · exact ⟨_, rfl⟩

theorem State.driven_eq (p : BitVec 6) (v : Bool) (s : State) : ∃ trace, s.driven p v = { s with
    inFlight := none, line := v, lvalid := true, setDone := true, pins := pinPut p.toNat v s.pins, trace
    actions := s.actions ++ [⟨.setPin p v, .ok⟩] } :=
  State.emitSetLog_eq p v _

/-! ### The line -/

theorem State.LineFits.setDone_eq {s : State} {l : Label} (h : s.LineFits l) (hl : precedesSet l) : s.setDone = false :=
  (Bool.not_eq_true _).mp fun hd => (h hd).2 hl

theorem State.LineFits.goto {s : State} {l l' : Label} (h : s.LineFits l) (hl : ¬ precedesSet l') : s.LineFits l' :=
  fun hd => ⟨(h hd).1, hl⟩

theorem State.lineFits_of_no_set {s : State} (h : s.setDone = false) (l : Label) : s.LineFits l := by
  simp [State.LineFits, h]

/-- The line driven last is known (R105). -/
theorem State.lineFits_pinPut {u : State} {l : Label} {v : Bool} {pins : Pins} (hpins : u.pins = pinPut u.lPin.toNat v pins)
    (hl : ¬ precedesSet l) : u.LineFits l :=
  fun _ => ⟨by rw [hpins, pinLevel_pinPut]; rfl, hl⟩

/-! ### Going on, and ending -/

/-- Going on at a label the table admits. -/
theorem State.Landed.inv_goto {u : State} (h : u.Landed) {l : Label} (hfit : u.FitsAt l) (hline : u.LineFits l) :
    State.Inv { u with seq := l } :=
  (State.inv_iff_of_busy (s := { u with seq := l }) h.running.busy).mpr
    ⟨h.running.update h.running.registers.pins h.running.registers.line, hfit,
      .boundary ⟨h.boundary.inFlight, h.boundary.ending, h.boundary.wrem⟩ hline⟩

/-- The last writes of a terminating step, with the handle released (R127, R128, R210). -/
theorem State.Landed.ended_finish {u : State} (h : u.Landed) (hheld : u.held = false) {k : EndKind}
    (hk : k.fits u.lOp = true ∨ k = .done ∧ u.lOp = 5) : (u.finish k).Ended := by
  obtain ⟨⟨-, ⟨hthermo, hlatches, hcleared, hpins, hline⟩, hcode, hsleep, -⟩, hflight, hending, hwrem⟩ := h
  have hnofault {u' : State} (hc : u'.fcode = u.fcode) (hs : u'.state ≠ .fault) : u'.codeIffFault :=
    ⟨fun hf => absurd (hc.trans hcode) hf, fun hf => absurd hf hs⟩
  cases k with
  | done =>
    have hop : u.lOp ≠ 3 := by
      intro h3
      rw [h3] at hk
      exact absurd hk (by decide)
    exact ⟨by simp [State.finish], ⟨hthermo, hlatches, hcleared, hpins, hline⟩, ⟨hflight, hending, hwrem⟩,
      rfl, hheld, rfl, hnofault rfl (by simp [State.finish]), fun hs => absurd (hsleep hs) hop⟩
  | stopped =>
    exact ⟨by simp [State.finish], ⟨hthermo, hlatches, hcleared, hpins, hline⟩, ⟨hflight, hending, hwrem⟩,
      rfl, hheld, rfl, hnofault rfl (by simp [State.finish]), fun hs => ⟨hsleep hs, .inl rfl⟩⟩
  | fault code =>
    have hne : code ≠ .none := by simpa [EndKind.fits] using hk
    exact ⟨by simp [State.finish], ⟨hthermo, hlatches, hcleared, hpins, hline⟩, ⟨hflight, hending, rfl⟩,
      rfl, hheld, rfl, ⟨fun _ => rfl, fun _ => hne⟩, fun hs => ⟨hsleep hs, .inr rfl⟩⟩

/-- A terminating step: its `Close()` goes out, or its last writes are made (R120). -/
theorem State.Landed.inv_terminate {u before : State} (h : u.Landed) (hfit : u.FitsAt u.seq) {k : EndKind}
    (hk : k.fits u.lOp = true ∨ k = .done ∧ u.lOp = 5 ∧ u.held = false)
    (hbefore : before.lvalid = false → before.line = false) : (State.terminate k before u).Inv := by
  obtain ⟨hheld, hs⟩ | ⟨hheld, hs⟩ := State.terminate_cases k before u <;> rw [hs]
  · have hk : k.fits u.lOp = true := hk.resolve_right fun ⟨_, _, hnot⟩ => by simp [hheld] at hnot
    refine (State.inv_iff_of_busy ?_).mpr ?_
    · exact h.running.busy
    exact
      ⟨h.running.update h.running.registers.pins hbefore, hfit,
        .closing _ ⟨rfl, rfl, h.boundary.wrem, hheld, hk, h.running.registers.line⟩⟩
  · exact (h.ended_finish hheld (hk.imp_right fun ⟨hd, hop, _⟩ => ⟨hd, hop⟩)).inv

/-- The answer of a terminating step's `Close()` (R106). -/
theorem State.Closing.ended_closed {s : State} {e : Ending} (h : s.Closing e) (hrun : s.Running) : (s.closed e).Ended := by
  have hlanded : State.Landed { s.land.record .closeCtl .ok with
      held := false, line := e.line, lvalid := e.lvalid, ending := none } :=
    ⟨hrun.update hrun.registers.pins h.line, rfl, rfl, h.wrem⟩
  exact hlanded.ended_finish rfl (.inl h.kind)

/-! ### Sound stages -/

/-- Where the command stands when its response comes: at label `l`, as the table has it. -/
structure State.StandsAt (s : State) (l : Label) : Prop where
  running : s.Running
  seq : s.seq = l
  fits : s.FitsAt l
  line : s.LineFits l

theorem State.StandsAt.fitsSeq {s : State} {l : Label} (h : s.StandsAt l) : s.FitsAt s.seq := by
  rw [h.seq]
  exact h.fits

/-- If a command that began its step in `before` has landed in `u`, what `next` does there keeps the invariant. -/
def Continues (before u : State) (next : State → Progress) : Prop := u.Landed → ((next u).settle before).Inv

/-- After the successful response of the stage's action, whatever it adds to the observation, the trace and the tick count, the
command goes on within the invariant. -/
def Stage.Sound (s : State) : Stage → Prop
  | .openCtl next => ∀ actions, Continues s { s with inFlight := none, held := true, actions } next
  | .cfgPin p next => ∀ actions, Continues s { s with inFlight := none, pins := pinForget p.toNat s.pins, actions } next
  | .setPin p v next => ∀ trace actions, Continues s
    { s with inFlight := none, line := v, lvalid := true, setDone := true, pins := pinPut p.toNat v s.pins, trace, actions } next
  | .getPin _ next => ∀ g actions, Continues s { s with inFlight := none, line := g, lvalid := true, actions } (next g)
  | .bindSensor next => ∀ actions, Continues s { s with inFlight := none, sbound := true, actions } next
  | .readTemp next => ∀ t actions, Continues s { s with inFlight := none, temp := t, actions } (next t)
  | .wait _ next => ∀ wrem ticks actions, Continues s { s with inFlight := none, wrem, ticks, actions } next

/-! ### The pulse (R140, R141) -/

theorem State.Running.pulseDuty_le {s : State} (h : s.Running) (hop : s.lOp ∈ usersOf .puSetH) : s.pulseDuty ≤ 100 := by
  obtain ⟨hperc, -⟩ := h.registers.thermo
  obtain ⟨-, -, hduty⟩ := h.operands h.busy
  unfold State.pulseDuty
  split
  · exact hperc
  · next h3 =>
    have : s.lOp = 1 ∨ s.lOp = 6 := by
      simp only [usersOf, List.mem_cons, List.not_mem_nil, or_false] at hop
      exact hop.imp_right (Or.resolve_left · h3)
    exact hduty this

theorem usPerPercent_le (f : Nat) : usPerPercent f ≤ 10000 := Nat.div_le_self _ _

theorem tHigh_le {d : Nat} (h : d ≤ 100) (f : Nat) : tHigh d f ≤ 1000000 := Nat.mul_le_mul h (usPerPercent_le f)

theorem tLow_le (d f : Nat) : tLow d f ≤ 1000000 := Nat.mul_le_mul (Nat.sub_le 100 d) (usPerPercent_le f)

theorem period_le (f : Nat) : period f ≤ 1000000 := Nat.mul_le_mul_left 100 (usPerPercent_le f)

theorem waitBounded_of_le {n : Nat} (h0 : n ≠ 0) (h : n ≤ 1000000) : waitBounded (some (.wait n)) = true := by
  simp only [waitBounded, Bool.and_eq_true, decide_eq_true_eq]
  omega

theorem State.FitsAt.puWaitH {s : State} (h : s.FitsAt .puSetH) (hrun : s.Running) (h0 : tHigh s.pulseDuty s.freqHz ≠ 0) :
    s.FitsAt .puWaitH := by
  obtain ⟨hop, hheld, hroom, hpulses⟩ := h
  exact ⟨hop, hheld, hroom, hpulses, waitBounded_of_le h0 (tHigh_le (hrun.pulseDuty_le hop) _)⟩

theorem State.FitsAt.puWaitL {s : State} (h : s.FitsAt .puSetL) (h0 : tLow s.pulseDuty s.freqHz ≠ 0) : s.FitsAt .puWaitL := by
  obtain ⟨hop, hheld, hroom, hpulses⟩ := h
  exact ⟨hop, hheld, hroom, hpulses, waitBounded_of_le h0 (tLow_le _ _)⟩

theorem State.FitsAt.puSetL_of_puWaitH {s : State} (h : s.FitsAt .puWaitH) : s.FitsAt .puSetL := by
  obtain ⟨hop, hheld, hroom, hpulses, -⟩ := h
  exact ⟨hop, hheld, hroom, hpulses⟩

theorem State.FitsAt.puSetL_of_puWaitL {s : State} (h : s.FitsAt .puWaitL) : s.FitsAt .puSetL := by
  obtain ⟨hop, hheld, hroom, hpulses, -⟩ := h
  exact ⟨hop, hheld, hroom, hpulses⟩

/-- A computation after `Wait(n)`, which is skipped when `n` is 0. -/
theorem inv_waitOr {n : Nat} {l : Label} {skipped : State → Progress} {u before : State}
    (hwait : n ≠ 0 → State.Inv { u with seq := l }) (hskip : ((skipped u).settle before).Inv) :
    ((waitOr n l skipped u).settle before).Inv := by
  unfold waitOr
  split
  · exact hskip
  · next h => exact hwait h

/-- What the return of a pulse starts from. -/
structure State.Pulsed (s u : State) : Prop where
  landed : u.Landed
  fits : u.FitsAt .puSetL
  seqFits : u.FitsAt u.seq
  line : u.LineFits .puSetL
  op : u.lOp = s.lOp

/-- The pulse's stages are sound where its return is. -/
theorem pulseStage_sound {s : State} {l : Label} (h : s.StandsAt l) {ret : State → Progress}
    (hret : ∀ u, s.Pulsed u → ((ret u).settle s).Inv) {stage : Stage} (hstage : pulseStage s.pulseDuty s ret l = some stage) :
    stage.Sound s := by
  have hfitSeq := h.fitsSeq
  obtain ⟨hrun, -, hfit, hline⟩ := h
  have hbody : ¬ precedesSet .puSetL := by decide
  cases l <;> cases hstage
  case puSetH =>
    intro trace actions hu
    have hlow : s.FitsAt .puSetL := hfit
    exact inv_waitOr (fun h0 => hu.inv_goto (hfit.puWaitH hrun h0).update (State.lineFits_pinPut rfl (by decide)))
      (hu.inv_goto hlow.update (State.lineFits_pinPut rfl hbody))
  case puWaitH => exact fun _ _ _ hu => hu.inv_goto hfit.puSetL_of_puWaitH.update (hline.goto hbody).update
  case puSetL =>
    intro trace actions hu
    exact inv_waitOr (fun h0 => hu.inv_goto (hfit.puWaitL h0).update (State.lineFits_pinPut rfl (by decide)))
      (hret _ ⟨hu, hfit.update, hfitSeq.update, State.lineFits_pinPut rfl hbody, rfl⟩)
  case puWaitL =>
    exact fun _ _ _ hu => hret _ ⟨hu, hfit.puSetL_of_puWaitL.update, hfitSeq.update, (hline.goto hbody).update, rfl⟩

/-! ### The prologue (R102, R103) -/

theorem State.StandsAt.openCtl_sound {s : State} (h : s.StandsAt .pOpen) {l : Label} (hop : s.lOp ∈ usersOf l)
    (hl : l = .pCfg ∨ l = .rpGet) : (Stage.openCtl (.goto l)).Sound s := by
  intro actions hu
  obtain ⟨-, -, hroom, hsleep⟩ := h.fits
  refine hu.inv_goto ?_ (State.lineFits_of_no_set (h.line.setDone_eq (by decide)) _)
  obtain rfl | rfl := hl
  · exact ⟨hop, rfl, hroom, hsleep⟩
  · exact ⟨hop, rfl, hroom⟩

/-- After `Cfg`, the command's body begins at a label the table admits. -/
theorem State.StandsAt.cfgPin_sound {s : State} (h : s.StandsAt .pCfg) {p : BitVec 6} {l : State → Label}
    (hl : ∀ u : State, u.FitsAt .pCfg → u.lOp = s.lOp → u.RegistersOk → u.FitsAt (l u)) :
    (Stage.cfgPin p fun s => .goto (l s) s).Sound s :=
  fun _ hu => hu.inv_goto (hl _ h.fits.update rfl hu.running.registers)
    (State.lineFits_of_no_set (by exact h.line.setDone_eq (by decide)) _)

/-! ### PULSE and FIXED -/

theorem State.FitsAt.pulseEntry {s : State} (h : s.FitsAt .puSetH) (d : Nat) : s.FitsAt (pulseEntry d) := by
  unfold Machine.pulseEntry
  split
  · exact h
  · exact h

/-- PULSE and FIXED have no sleep, so their pulse may begin. -/
theorem State.FitsAt.puSetH_of_pCfg {s : State} (h : s.FitsAt .pCfg) (hop : s.lOp = 1 ∨ s.lOp = 6) : s.FitsAt .puSetH := by
  obtain ⟨-, hheld, hroom, -⟩ := h
  obtain hop | hop := hop
  · exact ⟨by rw [hop]; decide, hheld, hroom, fun h3 => by simp [hop] at h3⟩
  · exact ⟨by rw [hop]; decide, hheld, hroom, fun h3 => by simp [hop] at h3⟩

theorem pulsePlan_sound {s : State} {l : Label} (h : s.StandsAt l) (hop : s.lOp = 6) {stage : Stage}
    (hstage : pulsePlan s l = some stage) : stage.Sound s := by
  have hduty : s.pulseDuty = s.duty := if_neg (by rw [hop]; decide)
  unfold pulsePlan at hstage
  split at hstage
  · cases hstage
    exact h.openCtl_sound (by rw [hop]; decide) (.inl rfl)
  · cases hstage
    exact h.cfgPin_sound (l := fun _ => pulseEntry s.duty) fun u hfit hu _ =>
      (hfit.puSetH_of_pCfg (.inr (hu.trans hop))).pulseEntry _
  · rw [← hduty] at hstage
    exact pulseStage_sound h (ret := .finished) (fun u hu =>
      hu.landed.inv_terminate hu.seqFits (.inl (by rw [hu.op, hop]; decide)) h.running.registers.line) hstage

theorem fixedPlan_sound {s : State} {l : Label} (h : s.StandsAt l) (hop : s.lOp = 1) {stage : Stage}
    (hstage : fixedPlan s l = some stage) : stage.Sound s := by
  have hduty : s.pulseDuty = s.duty := if_neg (by rw [hop]; decide)
  have hkind : EndKind.done.fits s.lOp = true := by rw [hop]; decide
  unfold fixedPlan at hstage
  split at hstage
  · cases hstage
    exact h.openCtl_sound (by rw [hop]; decide) (.inl rfl)
  · cases hstage
    refine h.cfgPin_sound (l := fun _ => if s.duty = 0 ∨ s.duty = 100 then .fxSet else .puSetH) fun u hfit hu _ => ?_
    have hop : u.lOp = 1 := hu.trans hop
    obtain ⟨-, hheld, hroom, -⟩ := id hfit
    split
    · exact ⟨by rw [hop]; decide, hheld, hroom⟩
    · exact hfit.puSetH_of_pCfg (.inl hop)
  · cases hstage
    exact fun _ _ hu => hu.inv_terminate h.fitsSeq.update (.inl hkind) h.running.registers.line
  · rw [← hduty] at hstage
    exact pulseStage_sound h (ret := .goto .puSetH)
      (fun u hu => hu.landed.inv_goto hu.fits (hu.line.goto (by decide))) hstage

/-! ### The report commands (R190, R191) -/

theorem rpinPlan_sound {s : State} {l : Label} (h : s.StandsAt l) (hop : s.lOp = 4) {stage : Stage}
    (hstage : rpinPlan s l = some stage) : stage.Sound s := by
  have hkind : EndKind.done.fits s.lOp = true := by rw [hop]; decide
  cases l <;> cases hstage
  case pOpen => exact h.openCtl_sound (by rw [hop]; decide) (.inr rfl)
  case rpGet => exact fun _ _ hu => hu.inv_terminate h.fitsSeq.update (.inl hkind) h.running.registers.line

theorem rtempPlan_sound {s : State} {l : Label} (h : s.StandsAt l) (hop : s.lOp = 5) {stage : Stage}
    (hstage : rtempPlan s l = some stage) : stage.Sound s := by
  cases l <;> cases hstage
  case rtBind =>
    obtain ⟨huser, hheld, hroom, -⟩ := h.fits
    exact fun _ hu => hu.inv_goto ⟨huser, hheld, hroom, rfl⟩
      (State.lineFits_of_no_set (h.line.setDone_eq (by decide)) _)
  case rtTread =>
    obtain ⟨huser, hheld, hroom, hbound⟩ := h.fits
    intro t actions hu
    refine hu.inv_terminate ?_ (.inr ⟨rfl, hop, hheld⟩) h.running.registers.line
    rw [h.seq]
    exact ⟨huser, hheld, hroom, hbound⟩

/-! ### HYST (R160 to R164) -/

theorem State.fitsAt_hystStart {u : State} (hop : u.lOp = 2) (hheld : u.held = true) (hroom : u.hasRoom) :
    u.FitsAt u.hystStart := by
  unfold State.hystStart
  split
  · next hb => exact ⟨by rw [hop]; decide, hheld, hroom, hb⟩
  · next hb => exact ⟨by rw [hop]; decide, hheld, hroom, by simpa using hb⟩

theorem State.hystStart_body (u : State) : ¬ precedesSet u.hystStart := by
  unfold State.hystStart
  split
  · decide
  · decide

/-- A DECIDE record does not touch what the invariant speaks of. -/
theorem State.Landed.update_trace {u : State} (h : u.Landed) (trace : List TraceRec) : State.Landed { u with trace } :=
  ⟨h.running.update h.running.registers.pins h.running.registers.line,
    h.boundary.inFlight, h.boundary.ending, h.boundary.wrem⟩

theorem hystDecide_eq (d : Decision) (u : State) : ∃ trace, hystDecide d u = .goto .hyWait { u with trace } := by
  obtain ⟨trace, h⟩ := State.emitDecision_eq u.temp d 0 false u
  exact ⟨trace, congrArg (Progress.goto .hyWait) h⟩

/-- The end of a HYST tick goes on at its wait. -/
theorem State.Landed.inv_hystDecide {u before : State} (hu : u.Landed) (hfit : u.FitsAt .hyWait) {l : Label}
    (hline : u.LineFits l) (d : Decision) : ((hystDecide d u).settle before).Inv := by
  obtain ⟨trace, he⟩ := hystDecide_eq d u
  rw [he]
  exact (hu.update_trace trace).inv_goto hfit.update (hline.goto (by decide)).update

theorem hystPlan_sound {s : State} {l : Label} (h : s.StandsAt l) (hop : s.lOp = 2) {stage : Stage}
    (hstage : hystPlan s l = some stage) : stage.Sound s := by
  cases l <;> cases hstage
  case pOpen => exact h.openCtl_sound (by rw [hop]; decide) (.inl rfl)
  case pCfg =>
    refine h.cfgPin_sound (l := State.hystStart) fun u hfit hu _ => ?_
    obtain ⟨-, hheld, hroom, -⟩ := hfit
    exact State.fitsAt_hystStart (hu.trans hop) hheld hroom
  case hyBind =>
    obtain ⟨huser, hheld, hroom, -⟩ := h.fits
    exact fun _ hu => hu.inv_goto ⟨huser, hheld, hroom, rfl⟩ (h.line.goto (by decide)).update
  case hyTread =>
    obtain ⟨huser, hheld, hroom, -⟩ := h.fits
    intro t actions hu
    unfold hystAfterTread
    split
    · exact hu.inv_hystDecide ⟨huser, hheld, hroom⟩ h.line.update _
    · exact hu.inv_goto ⟨huser, hheld, hroom⟩ (h.line.goto (by decide)).update
  case hyGet =>
    obtain ⟨huser, hheld, hroom⟩ := h.fits
    intro g actions hu
    unfold hystAfterGet
    split
    · next hhigh => exact hu.inv_goto ⟨huser, hheld, hroom, .inl hhigh.1⟩ (h.line.goto (by decide)).update
    · split
      · next hlow => exact hu.inv_goto ⟨huser, hheld, hroom, .inr hlow.1⟩ (h.line.goto (by decide)).update
      · exact hu.inv_hystDecide ⟨huser, hheld, hroom⟩ h.line.update _
  case hySet =>
    obtain ⟨huser, hheld, hroom, -⟩ := h.fits
    exact fun _ _ hu => hu.inv_hystDecide ⟨huser, hheld, hroom⟩ (State.lineFits_pinPut (l := .hyWait) rfl (by decide)) _
  case hyWait =>
    obtain ⟨-, hheld, hroom⟩ := h.fits
    exact fun _ _ _ hu => hu.inv_goto (State.fitsAt_hystStart hop hheld hroom) (h.line.goto (State.hystStart_body _)).update

/-! ### THERMO (R170 to R180) -/

/-- The branch SLEEP and PERC select is the one the next iteration starts in (R171). -/
theorem State.fitsAt_thermoStart {u : State} (hop : u.lOp = 3) (hheld : u.held = true) (hroom : u.hasRoom)
    (hperc : u.perc.toNat ≤ 100) : u.FitsAt u.thermoStart := by
  have hfull : u.perc = 100 ↔ u.perc.toNat = 100 := BitVec.toNat_inj.symm
  unfold State.thermoStart
  split
  · next hb => exact ⟨by rw [hop]; decide, hheld, hroom, .inr (hfull.mp hb.2)⟩
  · next hb =>
    split
    · next hawake =>
      have hlt : u.perc.toNat < 100 := lt_of_le_of_ne hperc fun he => hb ⟨hawake, hfull.mpr he⟩
      exact State.FitsAt.pulseEntry ⟨by rw [hop]; decide, hheld, hroom, fun _ => ⟨hawake, hlt⟩⟩ _
    · next hasleep => exact ⟨by rw [hop]; decide, hheld, hroom, .inl (by simpa using hasleep)⟩

theorem State.thermoStart_body (u : State) : ¬ precedesSet u.thermoStart := by
  unfold State.thermoStart pulseEntry
  split_ifs <;> decide

/-- USEC, PERC and SLEEP of a running THERMO may change within their ranges. -/
theorem State.Landed.update_thermo {u : State} (h : u.Landed) (hop : u.lOp = 3) {usec : BitVec 21} {perc : BitVec 7}
    {sleep : Bool} {trace : List TraceRec} (husec : usec.toNat < 2000000) (hperc : perc.toNat ≤ 100) :
    State.Landed { u with usec, perc, sleep, trace } := by
  obtain ⟨⟨hbusy, ⟨-, hlatches, -, hpins, hline⟩, hcode, -, hoperands⟩, hflight, hending, hwrem⟩ := h
  exact ⟨⟨hbusy, ⟨⟨hperc, husec⟩, hlatches, fun h3 => absurd hop h3, hpins, hline⟩, hcode, fun _ => hop, hoperands⟩,
    hflight, hending, hwrem⟩

/-- The end of an iteration: the window has room for another one, or its evaluation is due (R175). -/
theorem State.Landed.inv_thermoElapsed {u before : State} (h : u.Landed) (hop : u.lOp = 3) (hheld : u.held = true)
    (hroom : u.hasRoom) {l : Label} (hline : u.LineFits l) {n : Nat} (hn : n ≤ 1000000) :
    ((thermoElapsed n u).settle before).Inv := by
  obtain ⟨hperc, -⟩ := h.running.registers.thermo
  unfold State.hasRoom at hroom
  obtain ⟨usec, hval, ⟨-, hs⟩ | ⟨hlt, hs⟩⟩ := thermoElapsed_cases n u <;> rw [hs] <;>
    have husec : usec.toNat < 2000000 := by (rw [hval, BitVec.toNat_ofNat]; omega)
  · have hu' : State.Landed { u with usec } := h.update_thermo hop husec hperc
    refine hu'.inv_goto ?_ (hline.goto (by split <;> decide))
    split
    · next hb => exact ⟨by show u.lOp ∈ _; rw [hop]; decide, hheld, hb⟩
    · next hb => exact ⟨by show u.lOp ∈ _; rw [hop]; decide, hheld, by simpa using hb⟩
  · have hu' : State.Landed { u with usec } := h.update_thermo hop husec hperc
    exact hu'.inv_goto (State.fitsAt_thermoStart (u := { u with usec }) hop hheld hlt hperc)
      (hline.goto (State.thermoStart_body u))

/-- An evaluation holds PERC, or moves it by one inside 0..100 (R178). -/
def percMoves (p q : BitVec 7) : Prop := q = p ∨ (q.toNat = p.toNat + 1 ∧ p.toNat < 100) ∨ q.toNat + 1 = p.toNat

theorem ramp_eq (t : Word) (u : State) : ∃ d perc, ramp t u = (d, { u with perc }) ∧ percMoves u.perc perc := by
  obtain ⟨-, hlt, h⟩ | ⟨-, hpos, h⟩ | ⟨-, -, h⟩ := ramp_cases t u
  · exact ⟨_, _, h, .inr (.inl ⟨by bv_omega, hlt⟩)⟩
  · exact ⟨_, _, h, .inr (.inr (by bv_omega))⟩
  · exact ⟨_, _, h, .inl rfl⟩

theorem evaluate_eq (t : Word) (u : State) :
    ∃ d perc sleep, evaluate t u = (d, { u with perc, sleep }) ∧ percMoves u.perc perc := by
  obtain ⟨-, h⟩ | ⟨-, -, -, h⟩ | ⟨-, -, -, h⟩ | ⟨-, -, -, h⟩ | ⟨-, -, -, h⟩ := evaluate_cases t u
  · exact ⟨_, _, _, h, .inl rfl⟩
  · exact ⟨_, _, _, h, .inl rfl⟩
  · exact ⟨_, _, _, h, .inl rfl⟩
  · obtain ⟨d, perc, hramp, hmoves⟩ := ramp_eq t u
    exact ⟨d, perc, _, h.trans hramp, hmoves⟩
  · exact ⟨_, _, _, h, .inl rfl⟩

/-- After the evaluation's reading the next iteration starts, with USEC 0 and PERC moved by one at most (R175, R178). -/
theorem thermoAfterTread_eq (t : Word) (u : State) : ∃ perc sleep trace, percMoves u.perc perc ∧
    thermoAfterTread t u = .goto (State.thermoStart { u with perc, sleep }) { u with perc, sleep, usec := 0, trace } := by
  obtain ⟨d, perc, sleep, he, hmoves⟩ := evaluate_eq t u
  obtain ⟨trace, htrace⟩ := State.emitDecision_eq t d perc sleep { u with perc, sleep, usec := 0 }
  refine ⟨perc, sleep, trace, hmoves, ?_⟩
  unfold thermoAfterTread
  rw [he]
  dsimp only
  rw [htrace]
  rfl

theorem State.Landed.inv_thermoAfterTread {u before : State} (h : u.Landed) (hop : u.lOp = 3) (hheld : u.held = true)
    {l : Label} (hline : u.LineFits l) (t : Word) : ((thermoAfterTread t u).settle before).Inv := by
  obtain ⟨hperc, -⟩ := h.running.registers.thermo
  obtain ⟨perc, sleep, trace, hmoves, hs⟩ := thermoAfterTread_eq t u
  have hperc' : perc.toNat ≤ 100 := by
    obtain rfl | ⟨hup, hlt⟩ | hdown := hmoves
    · exact hperc
    · omega
    · omega
  have hu' : State.Landed { u with usec := 0, perc, sleep, trace } := h.update_thermo hop (by decide) hperc'
  have hfit := State.fitsAt_thermoStart (u := { u with usec := 0, perc, sleep, trace }) hop hheld
    (show (0 : Nat) < 1000000 by decide) hperc'
  rw [hs]
  exact hu'.inv_goto hfit (hline.goto (State.thermoStart_body _))

theorem thermoPlan_sound {s : State} {l : Label} (h : s.StandsAt l) (hop : s.lOp = 3) {stage : Stage}
    (hstage : thermoPlan s l = some stage) : stage.Sound s := by
  have hduty : s.pulseDuty = s.perc.toNat := if_pos hop
  unfold thermoPlan at hstage
  split at hstage
  · cases hstage
    exact h.openCtl_sound (by rw [hop]; decide) (.inl rfl)
  · cases hstage
    refine h.cfgPin_sound (l := State.thermoStart) fun u hfit hu hreg => ?_
    obtain ⟨-, hheld, hroom, -⟩ := hfit
    exact State.fitsAt_thermoStart (hu.trans hop) hheld hroom hreg.thermo.1
  · cases hstage
    obtain ⟨huser, hheld, hroom, hbranch⟩ := h.fits
    intro g actions hu
    unfold thermoAfterGet
    split
    · exact hu.inv_goto ⟨huser, hheld, hroom, hbranch⟩ (h.line.goto (by decide)).update
    · exact hu.inv_goto ⟨huser, hheld, hroom, hbranch⟩ (h.line.goto (by decide)).update
  · cases hstage
    have hfit : s.FitsAt .thWait := h.fits
    exact fun _ _ hu => hu.inv_goto hfit.update (State.lineFits_pinPut rfl (by decide))
  · cases hstage
    obtain ⟨-, hheld, hroom, -⟩ := h.fits
    exact fun _ _ _ hu => hu.inv_thermoElapsed hop hheld hroom h.line.update le_rfl
  · cases hstage
    obtain ⟨huser, hheld, -⟩ := h.fits
    exact fun _ hu => hu.inv_goto ⟨huser, hheld, rfl⟩ (h.line.goto (by decide)).update
  · cases hstage
    obtain ⟨-, hheld, -⟩ := h.fits
    exact fun t _ hu => hu.inv_thermoAfterTread hop hheld h.line.update t
  · rw [← hduty] at hstage
    refine pulseStage_sound h (fun u hu => ?_) hstage
    obtain ⟨-, hheld, hroom, -⟩ := hu.fits
    exact hu.landed.inv_thermoElapsed (hu.op.trans hop) hheld hroom hu.line (period_le _)

/-- Every stage of every command is sound. -/
theorem planOf_sound {s : State} (h : s.StandsAt s.seq) {stage : Stage} (hstage : planOf s.lOp s s.seq = some stage) :
    stage.Sound s := by
  obtain hop | hop | hop | hop | hop | hop | ⟨hplan, -⟩ := op_cases s.lOp
  · exact fixedPlan_sound h hop (by rwa [hop] at hstage)
  · exact hystPlan_sound h hop (by rwa [hop] at hstage)
  · exact thermoPlan_sound h hop (by rwa [hop] at hstage)
  · exact rpinPlan_sound h hop (by rwa [hop] at hstage)
  · exact rtempPlan_sound h hop (by rwa [hop] at hstage)
  · exact pulsePlan_sound h hop (by rwa [hop] at hstage)
  · rw [hplan] at hstage; cases hstage

end Sys2Proof.Machine
end

section
/-! Every step keeps the invariant (O9, O10). `State.Moves` says once what a step from the invariant can do; the invariant is then
a case per move. -/

namespace Sys2Proof.Machine

/-! ### The host's side and reset -/

theorem State.ended_reset {epoch ticks : Nat} {foreignDrive : Bool} {trace : List TraceRec} {actions : List PortEvent}
    {inputs : List Input} : State.Ended { State.reset with epoch, foreignDrive, ticks, trace, actions, inputs } where
  notBusy := by simp [State.reset]
  registers :=
    have hlatches : State.reset.latchesFit := by decide
    have hthermo : State.reset.thermoInRange := by decide
    ⟨hthermo, hlatches, fun _ => ⟨rfl, rfl⟩, rfl, fun _ => rfl⟩
  boundary := ⟨rfl, rfl, rfl⟩
  seq := rfl
  held := rfl
  stopReq := rfl
  code := ⟨fun hf => absurd rfl hf, fun hf => by cases hf⟩
  sleep := by simp [State.reset]

/-- Settles O9: the reset state has ended, with every register cleared. -/
theorem resetMeetsTheInvariant : Obligations.ResetMeetsTheInvariant :=
  State.Ended.inv (s := State.reset) State.ended_reset

/-- The host's accesses that start nothing, and taking an input, touch nothing the invariant speaks of, but STOPREQ while BUSY. -/
theorem State.Inv.update {s : State} (h : s.Inv) {verb : BitVec 2} {sfilt rej stopReq : Bool} {bus : BusResponse}
    {inputs : List Input} (hstop : stopReq = s.stopReq ∨ s.state = .busy) :
    State.Inv { s with verb, sfilt, rej, stopReq, bus, inputs } := by
  by_cases hb : s.state = .busy
  · obtain ⟨hrun, hfit, hphase⟩ := (State.inv_iff_of_busy hb).mp h
    refine (State.inv_iff_of_busy ?_).mpr ⟨hrun.update hrun.registers.pins hrun.registers.line, hfit.update, ?_⟩
    · exact hb
    · obtain ⟨⟨hflight, hending, hwrem⟩, hline⟩ | ⟨⟨hflight, hending, hwrem⟩, hline⟩ |
        ⟨e, hflight, hending, hwrem, hheld, hkind, hel⟩ := hphase
      · exact .boundary ⟨hflight, hending, hwrem⟩ hline.update
      · exact .awaiting ⟨hflight, hending, hwrem⟩ hline.update
      · exact .closing e ⟨hflight, hending, hwrem, hheld, hkind, hel⟩
  · obtain ⟨-, ⟨hthermo, hlatches, hcleared, hpins, hline⟩, ⟨hflight, hending, hwrem⟩, hseq, hheld, hstopReq, hcode, hsleep⟩ :=
      h.ended hb
    have hstop : stopReq = false := (hstop.resolve_right hb).trans hstopReq
    exact State.Ended.inv ⟨hb, ⟨hthermo, hlatches, hcleared, hpins, hline⟩, ⟨hflight, hending, hwrem⟩,
      hseq, hheld, hstop, hcode, hsleep⟩

theorem State.Inv.popInput {s : State} (h : s.Inv) : s.popInput.Inv := h.update (.inl rfl)

/-- What validation admits: a word of a command, at its entry, with its used fields in range (R125, R129). -/
structure Admitted (w : Word) (entry : Label) : Prop where
  op : fieldOp w ∈ ([1, 2, 3, 4, 5, 6] : List (BitVec 4))
  entry : entry = entryOf (fieldOp w)
  pin : fieldOp w ≠ 5 → (fieldPin w).toNat ≤ 53
  freq : fieldOp w = 1 ∨ fieldOp w = 3 ∨ fieldOp w = 6 → (fieldFreq w).toNat ≤ 50
  duty : fieldOp w = 1 ∨ fieldOp w = 6 → (fieldArg w).toNat ≤ 100

theorem admitted_packCmd {op : BitVec 4} {pin freq : BitVec 6} {arg : BitVec 16}
    (hop : op ∈ ([1, 2, 3, 4, 5, 6] : List (BitVec 4))) (hpin : op ≠ 5 → pin.toNat ≤ 53)
    (hfreq : op = 1 ∨ op = 3 ∨ op = 6 → freq.toNat ≤ 50)
    (hduty : op = 1 ∨ op = 6 → arg.toNat ≤ 100) : Admitted (packCmd op pin freq arg) (entryOf op) := by
  constructor <;> simp only [fieldOp_packCmd, fieldPin_packCmd, fieldFreq_packCmd, fieldArg_packCmd] <;> assumption

theorem pinLegal_iff (pin : BitVec 6) : pinLegal pin = true ↔ pin.toNat ≤ 53 :=
  decide_eq_true_iff.trans Nat.lt_succ_iff

theorem freqLegal_iff (freq : BitVec 6) : freqLegal freq = true ↔ freq.toNat ≤ 50 := decide_eq_true_iff

theorem dutyLegal_iff (arg : BitVec 16) : dutyLegal arg = true ↔ arg.toNat ≤ 100 := decide_eq_true_iff

/-- Every command but STOP is `command` with the plan of its operation, and starts only when its word is admitted. -/
theorem exec_command_cases (i : Instr) :
    (∃ pin freq arg, i = .stop pin freq arg ∧ exec i = execStop pin freq arg) ∨
    ∃ valid entry, exec i = command i valid entry (planOf (Laws.opcode i)) ∧ (valid = true → Admitted (encode i) entry) := by
  cases i with
  | stop pin freq arg => exact .inl ⟨pin, freq, arg, rfl, rfl⟩
  | fixed pin freq arg =>
    refine .inr ⟨_, _, rfl, fun hv => ?_⟩
    simp only [Bool.and_eq_true, pinLegal_iff, freqLegal_iff, dutyLegal_iff] at hv
    obtain ⟨⟨hpin, hfreq⟩, hduty⟩ := hv
    exact admitted_packCmd (by decide) (fun _ => hpin) (fun _ => hfreq) fun _ => hduty
  | hyst pin freq arg =>
    refine .inr ⟨_, _, rfl, fun hv => ?_⟩
    exact admitted_packCmd (by decide) (fun _ => (pinLegal_iff pin).mp hv) (fun h => absurd h (by decide))
      fun h => absurd h (by decide)
  | thermo pin freq arg =>
    refine .inr ⟨_, _, rfl, fun hv => ?_⟩
    simp only [Bool.and_eq_true, pinLegal_iff, freqLegal_iff] at hv
    obtain ⟨hpin, hfreq⟩ := hv
    exact admitted_packCmd (by decide) (fun _ => hpin) (fun _ => hfreq) fun h => absurd h (by decide)
  | rpin pin freq arg =>
    refine .inr ⟨_, _, rfl, fun hv => ?_⟩
    exact admitted_packCmd (by decide) (fun _ => (pinLegal_iff pin).mp hv) (fun h => absurd h (by decide))
      fun h => absurd h (by decide)
  | rtemp pin freq arg =>
    refine .inr ⟨_, _, rfl, fun _ => ?_⟩
    exact admitted_packCmd (by decide) (fun h => absurd rfl h) (fun h => absurd h (by decide))
      fun h => absurd h (by decide)
  | pulse pin freq arg =>
    refine .inr ⟨_, _, rfl, fun hv => ?_⟩
    simp only [Bool.and_eq_true, pinLegal_iff, freqLegal_iff, dutyLegal_iff] at hv
    obtain ⟨⟨hpin, hfreq⟩, hduty⟩ := hv
    exact admitted_packCmd (by decide) (fun _ => hpin) (fun _ => hfreq) fun _ => hduty
  | _ => exact .inr ⟨_, _, rfl, fun hv => by cases hv⟩

theorem effFreq_bounds {f : BitVec 6} (h : f.toNat ≤ 50) : 1 ≤ (effFreq f).toNat ∧ (effFreq f).toNat ≤ 50 := by
  unfold effFreq
  split
  · decide
  · next h0 =>
    have hpos : f.toNat ≠ 0 := fun hz => h0 (BitVec.eq_of_toNat_eq hz)
    omega

/-- Acceptance leaves the registers in order (R123). -/
theorem State.registersOk_accept {s : State} (w : Word) (h : s.RegistersOk) : (s.accept w).RegistersOk where
  thermo := by
    refine ⟨?_, by show (0 : Nat) < _; decide⟩
    show (if fieldOp w = 0x3 then percInit else 0).toNat ≤ 100
    split <;> decide
  latches := ⟨rfl, rfl, rfl⟩
  cleared hop := ⟨rfl, if_neg hop⟩
  pins := h.pins
  line _ := rfl

theorem mem_usersOf_pOpen {op : BitVec 4} :
    op ∈ ([1, 2, 3, 4, 5, 6] : List (BitVec 4)) → op ≠ 5 → op ∈ usersOf .pOpen := by
  revert op
  decide

/-- A started command stands at its entry label (R124, R129). -/
theorem State.inv_start {s : State} (h : s.RegistersOk) {w : Word} {entry : Label} (hw : Admitted w entry) :
    State.Inv { s.accept w with state := .busy, seq := entry } := by
  obtain ⟨hthermo, hlatches, hcleared, hpins, hline⟩ := State.registersOk_accept w h
  refine (State.inv_iff_of_busy rfl).mpr
    ⟨⟨rfl, ⟨hthermo, hlatches, hcleared, hpins, hline⟩, rfl, ?_, ?_⟩, ?_, .boundary ⟨rfl, rfl, rfl⟩ ?_⟩
  · simp [State.accept]
  · exact fun _ => ⟨hw.pin, fun hop => effFreq_bounds (hw.freq hop), hw.duty⟩
  · obtain ⟨hop, rfl, -⟩ := hw
    show State.FitsAt _ (entryOf (fieldOp w))
    unfold entryOf
    split
    · next h5 => exact ⟨by show fieldOp w ∈ _; rw [h5]; decide, rfl, by show (0 : Nat) < _; decide, rfl⟩
    · next h5 =>
      refine ⟨?_, rfl, by show (0 : Nat) < _; decide, fun _ => rfl⟩
      exact mem_usersOf_pOpen hop h5
  · simp [State.LineFits, State.accept]

/-- A word that fails validation ends at once in FAULT_USAGE (R124). -/
theorem State.ended_refuse {s : State} (h : s.RegistersOk) (w : Word) :
    ((s.accept w).raiseFault .usage (s.accept w)).Ended := by
  obtain ⟨hthermo, hlatches, hcleared, hpins, hline⟩ := State.registersOk_accept w h
  have hs : (s.accept w).raiseFault .usage (s.accept w) = (s.accept w).finish (.fault .usage) :=
    State.terminate_of_not_held rfl _ _
  rw [hs]
  exact ⟨by simp [State.finish], ⟨hthermo, hlatches, hcleared, hpins, hline⟩, ⟨rfl, rfl, rfl⟩, rfl, rfl, rfl,
    ⟨fun _ => rfl, fun _ => by simp [State.finish]⟩, fun hsleep => by simp [State.finish, State.accept] at hsleep⟩

/-! ### The moves -/

/-- The decoder reads the operation from OP (R78). -/
theorem opcode_decodeWord (w : Word) : Laws.opcode (decodeWord w) = fieldOp w := by
  have hop : fieldOp w = BitVec.ofNat 4 (fieldOp w).toNat := by simp
  have hlt := (fieldOp w).isLt
  unfold decodeWord
  generalize (fieldOp w).toNat = n at hop hlt
  rw [hop]
  interval_cases n <;> rfl

theorem planOf_popInput (op : BitVec 4) (s : State) (l : Label) : planOf op s.popInput l = planOf op s l := by
  obtain rfl | rfl | rfl | rfl | rfl | rfl | ⟨hplan, -⟩ := op_cases op
  · rfl
  · rfl
  · rfl
  · rfl
  · rfl
  · rfl
  · rw [hplan]; rfl

/-- What one step can do to a state of the invariant whose input `x` has been taken. -/
inductive State.Moves (s : State) : Option Input → State → Prop where
  /-- The input belongs to nothing. -/
  | stray (x) : s.Moves x s
  | reset : s.Moves (some .reset) s.resetNow
  /-- A host access that starts nothing; STOPREQ may be set while BUSY. -/
  | window (a verb sfilt rej stopReq bus) (hstop : stopReq = s.stopReq ∨ s.state = .busy) :
    s.Moves (some (.host a)) { s with verb, sfilt, rej, stopReq, bus }
  | start (a w entry) (hb : s.state ≠ .busy) (hw : Admitted w entry) :
    s.Moves (some (.host a)) { s.accept w with state := .busy, seq := entry }
  | refuse (a w) (hb : s.state ≠ .busy) : s.Moves (some (.host a)) ((s.accept w).raiseFault .usage (s.accept w))
  | launch (x) (hb : s.state = .busy) (h : s.AtBoundary) : s.Moves x (s.launchAction (s.actionAt s.seq))
  | stop (x) (hb : s.state = .busy) (h : s.AtBoundary) : s.Moves x s.stopStep
  | close (ok level e) (hb : s.state = .busy) (h : s.Closing e) : s.Moves (some (.gpio s.epoch ok level)) (s.closed e)
  | gpio (ok level stage) (hb : s.state = .busy) (h : s.Awaiting) (hstage : planOf s.lOp s s.seq = some stage) :
    s.Moves (some (.gpio s.epoch ok level)) (stage.onGpio ok level s)
  | sensor (ok t stage) (hb : s.state = .busy) (h : s.Awaiting) (hstage : planOf s.lOp s s.seq = some stage) :
    s.Moves (some (.sensor s.epoch ok t)) (stage.onSensor ok t s)
  | tick (n next) (hb : s.state = .busy) (h : s.Awaiting) (hstage : planOf s.lOp s s.seq = some (.wait n next)) :
    s.Moves (some .tick) (s.waitTick n next)

/-- An input that stands next and is not the sequencer's move. -/
theorem head?_of_getD {xs : List Input} {x : Input} (h : xs.head?.getD .sequencer = x) (hx : x ≠ .sequencer) :
    xs.head? = some x := by
  cases xs with
  | nil => exact absurd h.symm hx
  | cons y ys => exact congrArg some h

theorem actionAt_ne_closeCtl {s : State} {l : Label} (h : l ∈ labelsOf s.lOp) : s.actionAt l ≠ .closeCtl := by
  cases l with
  | idle => simp [mem_labelsOf_iff, usersOf] at h
  | _ => simp [State.actionAt]

/-- With nothing in flight a command of the invariant stands at a step boundary. -/
theorem State.Phase.atBoundary {s : State} (h : s.Phase) (hf : s.inFlight = none) : s.AtBoundary := by
  obtain ⟨h, -⟩ | ⟨⟨hflight, -⟩, -⟩ | ⟨e, ⟨hflight, -⟩⟩ := h
  · exact h
  · simp [hf] at hflight
  · simp [hf] at hflight

theorem State.Phase.awaiting_of_ne {s : State} (h : s.Phase) {a : Action} (hf : s.inFlight = some a) (ha : a ≠ .closeCtl) :
    s.Awaiting := by
  obtain ⟨⟨hflight, -⟩, -⟩ | ⟨h, -⟩ | ⟨e, ⟨hflight, -⟩⟩ := h
  · simp [hf] at hflight
  · exact h
  · exact absurd (by simpa [hf] using hflight) ha

theorem State.Phase.closing_of_closeCtl {s : State} (h : s.Phase) (hlabel : s.seq ∈ labelsOf s.lOp)
    (hf : s.inFlight = some .closeCtl) : ∃ e, s.Closing e := by
  obtain ⟨⟨hflight, -⟩, -⟩ | ⟨⟨hflight, -⟩, -⟩ | ⟨e, h⟩ := h
  · simp [hf] at hflight
  · exact absurd (by simpa [hf] using hflight.symm) (actionAt_ne_closeCtl hlabel)
  · exact ⟨e, h⟩

/-- The stage the sequencer runs is that of SEQ's action. -/
theorem action_of_planOf {s : State} {stage : Stage} (h : planOf s.lOp s s.seq = some stage) :
    stage.action = s.actionAt s.seq := by
  have haction := planOf_action s s.seq
  rw [h] at haction
  split at haction
  · simpa using haction
  · simp at haction

theorem State.Closing.closeAnswered_eq {s : State} {e : Ending} (h : s.Closing e) : s.closeAnswered = s.closed e := by
  simp [State.closeAnswered, h.ending]

/-- The running command's side of a step. -/
theorem moves_of_runCommand {s t : State} (h : s.Inv) (hb : s.state = .busy) (hrun : runCommand (planOf s.lOp) s = .next t) :
    s.popInput.Moves s.inputs.head? t := by
  obtain ⟨-, -, hphase⟩ := (State.inv_iff_of_busy (s := s.popInput) hb).mp h.popInput
  have hplan := planOf_popInput s.lOp s s.seq
  obtain ⟨-, hf, stage, hstage, rfl⟩ | ⟨ok, level, hin, hf, rfl⟩ | ⟨ok, level, a, stage, hin, hf, ha, hstage, rfl⟩ |
    ⟨ok, r, a, stage, hin, hf, ha, hstage, rfl⟩ | ⟨m, n, next, hin, hf, hstage, rfl⟩ | rfl := runCommand_next hrun
  · rw [action_of_planOf hstage]
    exact .launch _ hb (hphase.atBoundary hf)
  · obtain ⟨e, he⟩ := hphase.closing_of_closeCtl (h.label hb) hf
    rw [head?_of_getD hin (by simp), he.closeAnswered_eq]
    exact .close ok level e hb he
  · rw [head?_of_getD hin (by simp)]
    exact .gpio ok level stage hb (hphase.awaiting_of_ne hf ha) (hplan.trans hstage)
  · rw [head?_of_getD hin (by simp)]
    exact .sensor ok r stage hb (hphase.awaiting_of_ne hf ha) (hplan.trans hstage)
  · rw [head?_of_getD hin (by simp)]
    exact .tick n next hb (hphase.awaiting_of_ne hf (by simp)) (hplan.trans hstage)
  · exact .stray _

/-- STOP's side of a step. -/
theorem moves_of_execStop {pin freq : BitVec 6} {arg : BitVec 16} {s t : State} (h : s.Inv)
    (hhost : ∀ a rest, s.inputs ≠ .host a :: rest) (hrun : execStop pin freq arg s = .next t) (hb : s.state = .busy) :
    s.popInput.Moves s.inputs.head? t := by
  obtain ⟨-, -, hphase⟩ := (State.inv_iff_of_busy (s := s.popInput) hb).mp h.popInput
  obtain ⟨-, hf, -, -, rfl⟩ | ⟨ok, level, hin, hf, rfl⟩ | rfl := execStop_next hhost hrun
  · exact .stop _ hb (hphase.atBoundary hf)
  · obtain ⟨e, he⟩ := hphase.closing_of_closeCtl (h.label hb) hf
    rw [head?_of_getD hin (by simp), he.closeAnswered_eq]
    exact .close ok level e hb he
  · exact .stray _

/-- A step of the sequencer's side that is not STOP's runs the plan of L_OP (R120). -/
theorem exec_latchedWord {s : State} (hhost : ∀ a rest, s.inputs ≠ .host a :: rest) (hop : s.lOp ≠ 7) :
    exec (decodeWord s.latchedWord) s = runCommand (planOf s.lOp) s := by
  have hcode : Laws.opcode (decodeWord s.latchedWord) = s.lOp := (opcode_decodeWord _).trans (fieldOp_latchedWord s)
  obtain ⟨pin, freq, arg, hi, -⟩ | ⟨valid, entry, hexec⟩ := exec_cases (decodeWord s.latchedWord)
  · rw [hi] at hcode
    exact absurd hcode.symm hop
  · rw [hexec, hcode]
    exact (command_cases _ valid entry (planOf s.lOp) s).elim (fun ⟨a, rest, hin, _⟩ => absurd hin (hhost a rest)) And.right

theorem lOp_ne_stop {s : State} {l : Label} (h : l ∈ labelsOf s.lOp) : s.lOp ≠ 7 := by
  intro h7
  rw [h7] at h
  simp [labelsOf] at h

/-- A CMD write outside BUSY starts its command or ends it; any other write of the host starts nothing (R122 to R126). -/
theorem moves_of_issue {s : State} (a : HostAccess) {w : Word} {valid : Bool} {entry : Label}
    (hw : valid = true → Admitted w entry) : s.Moves (some (.host a)) (s.issue w valid entry) := by
  obtain ⟨-, hs⟩ | ⟨hb, hvalid, hs⟩ | ⟨hb, -, hs⟩ := issue_cases w valid entry s <;> rw [hs]
  · exact .window a s.verb s.sfilt true s.stopReq .written (.inl rfl)
  · exact .start a w entry hb (hw hvalid)
  · exact .refuse a w hb

theorem moves_of_requestStop (s : State) (a : HostAccess) : s.Moves (some (.host a)) s.requestStop := by
  unfold State.requestStop
  split
  · next hb => exact .window a s.verb s.sfilt s.rej true .written (.inr hb)
  · exact .window a s.verb s.sfilt s.rej s.stopReq .written (.inl rfl)

theorem moves_of_hostRead (s : State) (a : HostAccess) (off : BitVec 5) (size : Nat) :
    s.Moves (some (.host a)) (s.hostRead off size) := by
  unfold State.hostRead
  split
  · exact .window a s.verb s.sfilt s.rej s.stopReq _ (.inl rfl)
  · exact .window a s.verb s.sfilt s.rej s.stopReq _ (.inl rfl)

theorem moves_of_hostWrite (s : State) (a : HostAccess) (off : BitVec 5) (size : Nat) (w : Word) :
    s.Moves (some (.host a)) (s.hostWrite off size w) := by
  unfold State.hostWrite
  split
  · split
    · exact .window a _ _ s.rej s.stopReq .written (.inl rfl)
    · exact .window a s.verb s.sfilt s.rej s.stopReq .written (.inl rfl)
  · exact .window a s.verb s.sfilt s.rej s.stopReq .error (.inl rfl)

theorem moves_of_cmdWrite {s t : State} {a : HostAccess} {rest : List Input} (hin : s.inputs = .host a :: rest) {i : Instr}
    (hexec : exec i s = .next t) : s.popInput.Moves (some (.host a)) t := by
  obtain ⟨pin, freq, arg, -, hi⟩ | ⟨valid, entry, hi, hw⟩ := exec_command_cases i <;> rw [hi] at hexec
  · obtain ⟨-, -, -, hs⟩ | hnot := execStop_cases pin freq arg s
    · obtain rfl : s.popInput.requestStop = t := by simpa [hs] using hexec
      exact moves_of_requestStop _ a
    · exact absurd hin (hnot a rest)
  · obtain ⟨-, -, -, hs⟩ | ⟨hnot, -⟩ := command_cases i valid entry (planOf (Laws.opcode i)) s
    · obtain rfl : s.popInput.issue (encode i) valid entry = t := by simpa [hs] using hexec
      exact moves_of_issue a hw
    · exact absurd hin (hnot a rest)

/-- Every step from the invariant is one of the moves. -/
theorem step_moves {s t : State} (h : s.Inv) (hstep : step s = .next t) : s.popInput.Moves s.inputs.head? t := by
  obtain ⟨rest, hin, hs⟩ | ⟨a, rest, w, hin, -, hs⟩ | ⟨off, size, rest, hin, hs⟩ | ⟨off, size, w, rest, hin, -, hs⟩ |
    ⟨-, hhost, hb, hs⟩ | ⟨-, -, -, hs⟩ := step_cases s <;> rw [hs] at hstep
  · cases hstep
    rw [hin]
    exact .reset
  · rw [hin]
    exact moves_of_cmdWrite hin hstep
  · cases hstep
    rw [hin]
    exact moves_of_hostRead _ _ off size
  · cases hstep
    rw [hin]
    exact moves_of_hostWrite _ _ off size w
  · unfold State.moving at hstep
    split at hstep
    · exact moves_of_execStop (pin := 0) (freq := 0) (arg := 0) h hhost hstep hb
    · rw [exec_latchedWord hhost (lOp_ne_stop (h.label hb))] at hstep
      exact moves_of_runCommand h hb hstep
  · cases hstep
    exact .stray _

/-! ### Each move keeps the invariant -/

/-- WREM right after an action has been issued (R107). -/
def launchedWrem (a : Action) (n : BitVec 21) : Prop :=
  match a with
  | .wait k => n.toNat = k ∧ 1 ≤ k
  | _ => n = 0

theorem wremFits_of_launched {a : Action} {n : BitVec 21} (h : launchedWrem a n) : wremFits (some a) n.toNat = true := by
  cases a with
  | wait k =>
    obtain ⟨rfl, hpos⟩ := h
    simp [wremFits, hpos]
  | _ =>
    obtain rfl : n = 0 := h
    rfl

/-- Issuing an action puts it in flight; `Wait(n)` sets WREM to `n` (R107). -/
theorem State.launchAction_eq {s : State} (hw : s.wrem = 0) {a : Action} (ha : waitBounded (some a) = true) :
    ∃ n : BitVec 21, s.launchAction a = { s with inFlight := some a, wrem := n } ∧ launchedWrem a n := by
  cases a with
  | wait k =>
    simp only [waitBounded, Bool.and_eq_true, decide_eq_true_eq] at ha
    obtain ⟨hpos, hle⟩ := ha
    exact ⟨BitVec.ofNat 21 k, rfl, by rw [BitVec.toNat_ofNat]; omega, hpos⟩
  | _ => exact ⟨0, by rw [← hw]; rfl, rfl⟩

theorem State.Inv.waitBounded_actionAt {s : State} (h : s.Inv) (hb : s.state = .busy) :
    waitBounded (some (s.actionAt s.seq)) = true := by
  have hnamed : s.named = some (s.actionAt s.seq) := by rw [State.named_eq, if_pos (h.label hb)]
  exact hnamed ▸ h.waits hb

/-- What a running command of the invariant stands on, with no terminating step under way. -/
theorem State.Inv.standsAt {s : State} (h : s.Inv) (hb : s.state = .busy) (he : s.ending = none) : s.StandsAt s.seq := by
  obtain ⟨hrun, hfit, -⟩ := (State.inv_iff_of_busy hb).mp h
  obtain ⟨-, hline, -⟩ := h.lines
  exact ⟨hrun, rfl, hfit, hline hb he⟩

theorem State.Awaiting.wrem_eq {s : State} (h : s.Awaiting) (ha : ∀ n, s.actionAt s.seq ≠ .wait n) : s.wrem = 0 :=
  BitVec.eq_of_toNat_eq ((wremFits_of_no_wait (fun n hn => ha n (Option.some.inj hn)) _).mp h.wrem)

theorem inv_launch {s : State} (h : s.Inv) (hb : s.state = .busy) (hbound : s.AtBoundary) :
    (s.launchAction (s.actionAt s.seq)).Inv := by
  have hwait := h.waitBounded_actionAt hb
  obtain ⟨hrun, -, hfit, hline⟩ := h.standsAt hb hbound.ending
  obtain ⟨n, hs, hn⟩ := State.launchAction_eq hbound.wrem hwait
  rw [hs]
  refine (State.inv_iff_of_busy ?_).mpr ⟨hrun.update hrun.registers.pins hrun.registers.line, hfit.update,
    .awaiting ⟨rfl, hbound.ending, wremFits_of_launched hn⟩ hline.update⟩
  exact hb

/-- Taking the response of SEQ's action lands the command, whatever the response writes of the fields named here. -/
theorem State.StandsAt.landed {s : State} {l : Label} (h : s.StandsAt l) (he : s.ending = none)
    {held sbound line lvalid setDone : Bool} {temp : Word} {wrem : BitVec 21} (hw : wrem = 0) {pins : Pins} {ticks : Nat}
    {trace : List TraceRec} {actions : List PortEvent} (hpins : pinsWf pins = true) (hline : lvalid = false → line = false) :
    State.Landed { s with inFlight := none, held, sbound, line, lvalid, setDone, temp, wrem, pins, ticks, trace, actions } :=
  ⟨h.running.update hpins hline, rfl, he, hw⟩

/-- The failure of SEQ's action: fault entry, with LINE and LVALID as the failure leaves them (R200, R210). -/
theorem inv_fault {s : State} (h : s.StandsAt s.seq) (he : s.ending = none) (hw : s.wrem = 0) {line lvalid : Bool} {pins : Pins}
    {actions : List PortEvent} {code : FaultCode} (hcode : code ≠ .none) (hpins : pinsWf pins = true)
    (hline : lvalid = false → line = false) :
    (State.terminate (.fault code) s { s with inFlight := none, line, lvalid, pins, actions }).Inv := by
  have hlanded : State.Landed { s with inFlight := none, line, lvalid, pins, actions } := h.landed he hw hpins hline
  exact hlanded.inv_terminate h.fits.update (.inl (by simpa [EndKind.fits] using hcode)) h.running.registers.line

theorem inv_onGpio {s : State} (h : s.Inv) (hb : s.state = .busy) (ha : s.Awaiting) {stage : Stage}
    (hstage : planOf s.lOp s s.seq = some stage) (ok level : Bool) : (stage.onGpio ok level s).Inv := by
  have hst := h.standsAt hb ha.ending
  have hsound := planOf_sound hst hstage
  have haction := action_of_planOf hstage
  obtain ⟨-, -, -, hpins, hline⟩ := h.registers
  have hforget := fun p => pinsWf_pinForget p s.pins hpins
  have hw : (∀ n, stage.action ≠ .wait n) → s.wrem = 0 := fun hn => ha.wrem_eq (haction ▸ hn)
  obtain ⟨next, rfl, -, hs⟩ | ⟨next, rfl, -, hs⟩ | ⟨p, next, rfl, -, hs⟩ | ⟨p, next, rfl, -, hs⟩ |
    ⟨p, v, next, rfl, -, hs⟩ | ⟨p, v, next, rfl, -, hs⟩ | ⟨p, next, rfl, -, hs⟩ | ⟨p, next, rfl, -, hs⟩ | ⟨hs, -⟩ :=
    onGpio_cases ok level s stage <;> rw [hs]
  · exact hsound _ (hst.landed ha.ending (hw (by simp [Stage.action])) hpins hline)
  · exact inv_fault hst ha.ending (hw (by simp [Stage.action])) (by simp) hpins hline
  · exact hsound _ (hst.landed ha.ending (hw (by simp [Stage.action])) (hforget _) hline)
  · exact inv_fault hst ha.ending (hw (by simp [Stage.action])) (by simp) (hforget _) hline
  · obtain ⟨trace, hd⟩ := State.driven_eq p v s
    rw [hd]
    exact hsound _ _ (hst.landed ha.ending (hw (by simp [Stage.action])) (pinsWf_pinPut _ _ _ hpins) (by simp))
  · exact inv_fault hst ha.ending (hw (by simp [Stage.action])) (by simp) (hforget _) (by simp)
  · exact hsound _ _ (hst.landed ha.ending (hw (by simp [Stage.action])) hpins (by simp))
  · exact inv_fault hst ha.ending (hw (by simp [Stage.action])) (by simp) hpins (by simp)
  · exact h

theorem inv_onSensor {s : State} (h : s.Inv) (hb : s.state = .busy) (ha : s.Awaiting) {stage : Stage}
    (hstage : planOf s.lOp s s.seq = some stage) (ok : Bool) (t : Word) : (stage.onSensor ok t s).Inv := by
  have hst := h.standsAt hb ha.ending
  have hsound := planOf_sound hst hstage
  have haction := action_of_planOf hstage
  obtain ⟨-, -, -, hpins, hline⟩ := h.registers
  have hw : (∀ n, stage.action ≠ .wait n) → s.wrem = 0 := fun hn => ha.wrem_eq (haction ▸ hn)
  obtain ⟨next, rfl, -, hs⟩ | ⟨next, rfl, -, hs⟩ | ⟨next, rfl, hs⟩ | ⟨hs, -⟩ := onSensor_cases ok t s stage <;> rw [hs]
  · exact hsound _ (hst.landed ha.ending (hw (by simp [Stage.action])) hpins hline)
  · exact inv_fault hst ha.ending (hw (by simp [Stage.action])) (by simp) hpins hline
  · exact hsound _ _ (hst.landed ha.ending (hw (by simp [Stage.action])) hpins hline)
  · exact h

theorem inv_waitTick {s : State} (h : s.Inv) (hb : s.state = .busy) (ha : s.Awaiting) {n : Nat} {next : State → Progress}
    (hstage : planOf s.lOp s s.seq = some (.wait n next)) : (s.waitTick n next).Inv := by
  obtain ⟨hflight, hending, hwrem⟩ := ha
  have hst := h.standsAt hb hending
  obtain ⟨-, -, -, hpins, hline⟩ := h.registers
  have haction : s.actionAt s.seq = .wait n := (action_of_planOf hstage).symm
  rw [haction] at hflight hwrem
  simp only [wremFits, Bool.and_eq_true, decide_eq_true_eq] at hwrem
  obtain ⟨hpos, hle⟩ := hwrem
  obtain ⟨hone, hs⟩ | ⟨-, -, hs⟩ | ⟨hne, -, hs⟩ := waitTick_cases n next s <;> rw [hs]
  · exact planOf_sound hst hstage _ _ _ (hst.landed hending (by show s.wrem - 1 = 0; rw [hone]; rfl) hpins hline)
  · refine (State.inv_iff_of_busy ?_).mpr ⟨hst.running.update hpins hline, hst.fits.update,
      .boundary ⟨rfl, hending, rfl⟩ hst.line.update⟩
    exact hb
  · refine (State.inv_iff_of_busy ?_).mpr ⟨hst.running.update hpins hline, hst.fits.update,
      .awaiting ⟨?_, hending, ?_⟩ hst.line.update⟩
    · exact hb
    · exact hflight.trans (congrArg some haction.symm)
    · show wremFits (some (s.actionAt s.seq)) (s.wrem - 1).toNat = true
      rw [haction]
      simp only [wremFits, Bool.and_eq_true, decide_eq_true_eq]
      have hne : s.wrem.toNat ≠ 1 := fun h1 => hne (BitVec.eq_of_toNat_eq h1)
      bv_omega

/-- Settles O10: each move a step can make keeps the invariant. -/
theorem everyStepKeepsTheInvariant : Obligations.EveryStepKeepsTheInvariant := by
  intro s t h hstep
  have hr := h.popInput
  have hmoves := step_moves h hstep
  generalize s.popInput = r, s.inputs.head? = x at hr hmoves
  cases hmoves with
  | stray x => exact hr
  | reset => exact State.ended_reset.inv
  | window a verb sfilt rej stopReq bus hstop => exact hr.update hstop
  | start a w entry hb hw => exact State.inv_start hr.registers hw
  | refuse a w hb => exact (State.ended_refuse hr.registers w).inv
  | launch x hb hbound => exact inv_launch hr hb hbound
  | stop x hb hbound =>
    obtain ⟨hrun, -, hfit, -⟩ := hr.standsAt hb hbound.ending
    exact State.Landed.inv_terminate ⟨hrun, hbound⟩ hfit (.inl rfl) hrun.registers.line
  | close ok level e hb he => exact (he.ended_closed ((State.inv_iff_of_busy hb).mp hr).1).inv
  | gpio ok level stage hb ha hstage => exact inv_onGpio hr hb ha hstage ok level
  | sensor ok r stage hb ha hstage => exact inv_onSensor hr hb ha hstage ok r
  | tick n next hb ha hstage => exact inv_waitTick hr hb ha hstage

end Sys2Proof.Machine
end

section
/-! What a step leaves of PERC and of the handle (O36, O55), and the action a step boundary issues (O25). The computation after a
response changes USEC and the trace, and after a reading PERC and SLEEP; nothing else, whatever the command. -/

namespace Sys2Proof.Machine

/-! ### What the computation after a response changes -/

/-- The computation changes USEC and the trace at most. -/
def FramedNext (next : State → Progress) : Prop := ∀ u, ∃ usec trace, (next u).reached = { u with usec, trace }

/-- The frame of a stage's computation; `evaluates` says whether a reading may move PERC. -/
def Stage.Framed (evaluates : Prop) : Stage → Prop
  | .openCtl next => FramedNext next
  | .cfgPin _ next => FramedNext next
  | .setPin _ _ next => FramedNext next
  | .getPin _ next => ∀ g, FramedNext (next g)
  | .bindSensor next => FramedNext next
  | .readTemp next => ∀ t u, ∃ usec trace perc sleep, (next t u).reached = { u with usec, trace, perc, sleep } ∧
      (perc = u.perc ∨ evaluates ∧ percMoves u.perc perc)
  | .wait _ next => FramedNext next

theorem framedNext_goto (l : State → Label) : FramedNext fun s => .goto (l s) s := fun _ => ⟨_, _, rfl⟩

theorem framedNext_finished : FramedNext .finished := fun _ => ⟨_, _, rfl⟩

theorem framedNext_waitOr (n : Nat) (l : Label) {skipped : State → Progress} (h : FramedNext skipped) :
    FramedNext (waitOr n l skipped) := by
  intro u
  unfold waitOr
  split
  · exact h u
  · exact ⟨_, _, rfl⟩

theorem framedNext_hystDecide (d : State → Decision) : FramedNext fun s => hystDecide (d s) s := by
  intro u
  obtain ⟨trace, h⟩ := hystDecide_eq (d u) u
  exact ⟨_, trace, congrArg Progress.reached h⟩

theorem framedNext_hystAfterTread (t : Word) : FramedNext (hystAfterTread t) := by
  intro u
  unfold hystAfterTread
  split
  · exact framedNext_hystDecide (fun _ => .skip) u
  · exact ⟨_, _, rfl⟩

theorem framedNext_hystAfterGet (g : Bool) : FramedNext (hystAfterGet g) := by
  intro u
  unfold hystAfterGet
  split
  · exact ⟨_, _, rfl⟩
  · split
    · exact ⟨_, _, rfl⟩
    · exact framedNext_hystDecide (fun _ => .noChange) u

theorem framedNext_thermoElapsed (n : Nat) : FramedNext (thermoElapsed n) := by
  intro u
  obtain ⟨usec, -, ⟨-, h⟩ | ⟨-, h⟩⟩ := thermoElapsed_cases n u
  · exact ⟨usec, _, congrArg Progress.reached h⟩
  · exact ⟨usec, _, congrArg Progress.reached h⟩

theorem framedNext_thermoAfterGet (g : Bool) : FramedNext (thermoAfterGet g) := by
  intro u
  unfold thermoAfterGet
  split
  · exact ⟨_, _, rfl⟩
  · exact ⟨_, _, rfl⟩

/-- A reading that no evaluation follows. -/
theorem framed_readTemp {evaluates : Prop} {next : Word → State → Progress} (h : ∀ t, FramedNext (next t)) :
    (Stage.readTemp next).Framed evaluates := by
  intro t u
  obtain ⟨usec, trace, hs⟩ := h t u
  exact ⟨usec, trace, u.perc, u.sleep, hs, .inl rfl⟩

theorem framed_thermoAfterTread {evaluates : Prop} (he : evaluates) : (Stage.readTemp thermoAfterTread).Framed evaluates := by
  intro t u
  obtain ⟨perc, sleep, trace, hmoves, hs⟩ := thermoAfterTread_eq t u
  exact ⟨0, trace, perc, sleep, congrArg Progress.reached hs, .inr ⟨he, hmoves⟩⟩

theorem pulseStage_framed {evaluates : Prop} {d : Nat} {s : State} {ret : State → Progress} (h : FramedNext ret) {l : Label}
    {stage : Stage} (hstage : pulseStage d s ret l = some stage) : stage.Framed evaluates := by
  cases l <;> cases hstage
  case puSetH => exact framedNext_waitOr _ _ (framedNext_goto _)
  case puWaitH => exact framedNext_goto _
  case puSetL => exact framedNext_waitOr _ _ h
  case puWaitL => exact h

theorem fixedPlan_framed {evaluates : Prop} {s : State} {l : Label} {stage : Stage} (hstage : fixedPlan s l = some stage) :
    stage.Framed evaluates := by
  unfold fixedPlan at hstage
  split at hstage
  · cases hstage; exact framedNext_goto _
  · cases hstage; exact framedNext_goto _
  · cases hstage; exact framedNext_finished
  · exact pulseStage_framed (framedNext_goto _) hstage

theorem pulsePlan_framed {evaluates : Prop} {s : State} {l : Label} {stage : Stage} (hstage : pulsePlan s l = some stage) :
    stage.Framed evaluates := by
  unfold pulsePlan at hstage
  split at hstage
  · cases hstage; exact framedNext_goto _
  · cases hstage; exact framedNext_goto _
  · exact pulseStage_framed framedNext_finished hstage

theorem hystPlan_framed {evaluates : Prop} {s : State} {l : Label} {stage : Stage} (hstage : hystPlan s l = some stage) :
    stage.Framed evaluates := by
  cases l <;> cases hstage
  case pOpen => exact framedNext_goto _
  case pCfg => exact framedNext_goto _
  case hyBind => exact framedNext_goto _
  case hyTread => exact framed_readTemp framedNext_hystAfterTread
  case hyGet => exact framedNext_hystAfterGet
  case hySet => exact framedNext_hystDecide _
  case hyWait => exact framedNext_goto _

theorem thermoPlan_framed {s : State} {l : Label} {stage : Stage} (hstage : thermoPlan s l = some stage) :
    stage.Framed (l = .thTread) := by
  unfold thermoPlan at hstage
  split at hstage
  · cases hstage; exact framedNext_goto _
  · cases hstage; exact framedNext_goto _
  · cases hstage; exact framedNext_thermoAfterGet
  · cases hstage; exact framedNext_goto _
  · cases hstage; exact framedNext_thermoElapsed _
  · cases hstage; exact framedNext_goto _
  · cases hstage; exact framed_thermoAfterTread rfl
  · exact pulseStage_framed (framedNext_thermoElapsed _) hstage

theorem rpinPlan_framed {evaluates : Prop} {s : State} {l : Label} {stage : Stage} (hstage : rpinPlan s l = some stage) :
    stage.Framed evaluates := by
  cases l <;> cases hstage
  case pOpen => exact framedNext_goto _
  case rpGet => exact fun _ => framedNext_finished

theorem rtempPlan_framed {evaluates : Prop} {s : State} {l : Label} {stage : Stage} (hstage : rtempPlan s l = some stage) :
    stage.Framed evaluates := by
  cases l <;> cases hstage
  case rtBind => exact framedNext_goto _
  case rtTread => exact framed_readTemp fun _ => framedNext_finished

/-- Only the reading of a THERMO evaluation may move PERC (R30, R178). -/
theorem planOf_framed {op : BitVec 4} {s : State} {l : Label} {stage : Stage} (hstage : planOf op s l = some stage) :
    stage.Framed (op = 3 ∧ l = .thTread) := by
  obtain rfl | rfl | rfl | rfl | rfl | rfl | ⟨hplan, -⟩ := op_cases op
  · exact fixedPlan_framed hstage
  · exact hystPlan_framed hstage
  · have h := thermoPlan_framed hstage
    simpa only [true_and] using h
  · exact rpinPlan_framed hstage
  · exact rtempPlan_framed (s := s) hstage
  · exact pulsePlan_framed hstage
  · rw [hplan] at hstage
    cases hstage

/-! ### What an answered action leaves -/

/-- PERC stays, unless an evaluation moves it, and with the handle held the command stays BUSY. -/
structure State.Carries (evaluates : Prop) (s t : State) : Prop where
  perc : t.perc = s.perc ∨ evaluates ∧ percMoves s.perc t.perc
  busy : s.state = .busy → s.held = true → t.state = .busy

theorem State.carries_terminate {evaluates : Prop} {s u : State} (k : EndKind) (before : State)
    (hperc : u.perc = s.perc ∨ evaluates ∧ percMoves s.perc u.perc) (hstate : u.state = s.state)
    (hheld : s.held = true → u.held = true) : s.Carries evaluates (State.terminate k before u) where
  perc := by rwa [State.terminate_perc]
  busy hb hh := by rw [State.terminate_of_held (hheld hh)]; exact hstate.trans hb

theorem State.Carries.settle {evaluates : Prop} {s before : State} {p : Progress}
    (hperc : p.reached.perc = s.perc ∨ evaluates ∧ percMoves s.perc p.reached.perc) (hstate : p.reached.state = s.state)
    (hheld : s.held = true → p.reached.held = true) : s.Carries evaluates (p.settle before) := by
  cases p with
  | goto l u => exact ⟨hperc, fun hb _ => hstate.trans hb⟩
  | finished u => exact State.carries_terminate .done before hperc hstate hheld

theorem FramedNext.carries {evaluates : Prop} {next : State → Progress} (h : FramedNext next) {s u before : State}
    (hperc : u.perc = s.perc) (hstate : u.state = s.state) (hheld : s.held = true → u.held = true) :
    s.Carries evaluates ((next u).settle before) := by
  obtain ⟨usec, trace, hs⟩ := h u
  exact .settle (.inl (by rw [hs]; exact hperc)) (by rw [hs]; exact hstate) (by rw [hs]; exact hheld)

theorem onGpio_carries {evaluates : Prop} {stage : Stage} (h : stage.Framed evaluates) (ok level : Bool) (s : State) :
    s.Carries False (stage.onGpio ok level s) := by
  obtain ⟨next, rfl, -, hs⟩ | ⟨next, rfl, -, hs⟩ | ⟨p, next, rfl, -, hs⟩ | ⟨p, next, rfl, -, hs⟩ |
    ⟨p, v, next, rfl, -, hs⟩ | ⟨p, v, next, rfl, -, hs⟩ | ⟨p, next, rfl, -, hs⟩ | ⟨p, next, rfl, -, hs⟩ | ⟨hs, -⟩ :=
    onGpio_cases ok level s stage <;> rw [hs]
  · exact FramedNext.carries h rfl rfl fun _ => rfl
  · exact State.carries_terminate _ s (.inl rfl) rfl id
  · exact FramedNext.carries h rfl rfl id
  · exact State.carries_terminate _ s (.inl rfl) rfl id
  · obtain ⟨trace, hd⟩ := State.driven_eq p v s
    rw [hd]
    exact FramedNext.carries h rfl rfl id
  · exact State.carries_terminate _ s (.inl rfl) rfl id
  · exact (h (s.readback p level)).carries rfl rfl id
  · exact State.carries_terminate _ s (.inl rfl) rfl id
  · exact ⟨.inl rfl, fun hb _ => hb⟩

theorem onSensor_carries {evaluates : Prop} {stage : Stage} (h : stage.Framed evaluates) (ok : Bool) (t : Word) (s : State) :
    s.Carries evaluates (stage.onSensor ok t s) := by
  obtain ⟨next, rfl, -, hs⟩ | ⟨next, rfl, -, hs⟩ | ⟨next, rfl, hs⟩ | ⟨hs, -⟩ := onSensor_cases ok t s stage <;> rw [hs]
  · exact FramedNext.carries h rfl rfl id
  · exact State.carries_terminate _ s (.inl rfl) rfl id
  · obtain ⟨usec, trace, perc, sleep, hr, hperc⟩ := h t (s.temperature t)
    exact .settle (by rw [hr]; exact hperc) (by rw [hr]; rfl) (by rw [hr]; exact id)
  · exact ⟨.inl rfl, fun hb _ => hb⟩

theorem waitTick_carries {evaluates : Prop} {n : Nat} {next : State → Progress}
    (h : (Stage.wait n next).Framed evaluates) (s : State) : s.Carries False (s.waitTick n next) := by
  obtain ⟨-, hs⟩ | ⟨-, -, hs⟩ | ⟨-, -, hs⟩ := waitTick_cases n next s <;> rw [hs]
  · exact FramedNext.carries h rfl rfl id
  · exact ⟨.inl rfl, fun hb _ => hb⟩
  · exact ⟨.inl rfl, fun hb _ => hb⟩

/-- While BUSY a step other than reset leaves PERC and the handle as its answer's frame says, or is the answer of a `Close()`. -/
theorem State.Moves.carries {s t : State} {x : Option Input} (h : s.Moves x t) (hb : s.state = .busy) (hx : x ≠ some .reset) :
    s.Carries (s.lOp = 3 ∧ s.seq = .thTread ∧ ∃ ok r, x = some (.sensor s.epoch ok r)) t ∨
      ∃ e, s.Closing e ∧ t = s.closed e := by
  have weaken {evaluates : Prop} {t : State} (h : s.Carries False t) : s.Carries evaluates t :=
    ⟨.inl (h.perc.resolve_right fun hf => hf.1), h.busy⟩
  cases h with
  | reset => exact absurd rfl hx
  | start a w entry hnot => exact absurd hb hnot
  | refuse a w hnot => exact absurd hb hnot
  | close ok level e _ he => exact .inr ⟨e, he, rfl⟩
  | stray x => exact .inl ⟨.inl rfl, fun hb _ => hb⟩
  | window a verb sfilt rej stopReq bus _ => exact .inl ⟨.inl rfl, fun hb _ => hb⟩
  | launch x _ hbound =>
    refine .inl (weaken ?_)
    cases s.actionAt s.seq <;> exact ⟨.inl rfl, fun hb _ => hb⟩
  | stop x _ _ => exact .inl (State.carries_terminate .stopped s (.inl rfl) rfl id)
  | gpio ok level stage _ _ hstage => exact .inl (weaken (onGpio_carries (planOf_framed hstage) ok level s))
  | sensor ok r stage _ _ hstage =>
    obtain ⟨hperc, hbusy⟩ := onSensor_carries (planOf_framed hstage) ok r s
    exact .inl ⟨hperc.imp_right fun ⟨⟨hop, hseq⟩, hmoves⟩ => ⟨⟨hop, hseq, ok, r, rfl⟩, hmoves⟩, hbusy⟩
  | tick n next _ _ hstage => exact .inl (weaken (waitTick_carries (planOf_framed hstage) s))

/-! ### The statements -/

/-- Settles O36: with the handle held, only the answer of a `Close()` leaves BUSY. -/
theorem everyExitReleasesTheHandle : Obligations.EveryExitReleasesTheHandle := by
  intro s t h hb hheld hreset hstep hexit
  obtain ⟨-, hbusy⟩ | ⟨e, -, rfl⟩ := (step_moves h hstep).carries hb hreset
  · exact absurd (hbusy hb hheld) hexit
  · simp [State.closed_eq]

/-- Settles O55: the invariant bounds PERC, and only the reading of a THERMO evaluation moves it. -/
theorem percMovesByOneInEvaluationsOnly : Obligations.PercMovesByOneInEvaluationsOnly := by
  intro s t h hstep
  refine ⟨(everyStepKeepsTheInvariant s t h hstep).registers.thermo.1, fun hb hreset => ?_⟩
  obtain ⟨hperc | ⟨⟨hop, hseq, hx⟩, hmoves⟩, -⟩ | ⟨e, -, rfl⟩ := (step_moves h hstep).carries hb hreset
  · exact .inl hperc
  · obtain hsame | ⟨hup, -⟩ | hdown := hmoves
    · exact .inl hsame
    · exact .inr ⟨hop, hseq, hx, .inl hup⟩
    · exact .inr ⟨hop, hseq, hx, .inr hdown⟩
  · exact .inl (by simp [State.closed_eq])

/-- At a step boundary with no STOP pending the sequencer's move issues the action of SEQ (R120). -/
theorem step_sequencer {s : State} {rest : List Input} (h : s.Inv) (hb : s.state = .busy) (hf : s.inFlight = none)
    (hstop : s.stopReq = false) (hin : s.inputs = .sequencer :: rest) :
    step s = .next (s.popInput.launchAction (s.actionAt s.seq)) := by
  obtain ⟨-, -, hphase⟩ := (State.inv_iff_of_busy hb).mp h
  have hmoving : s.moving = decodeWord s.latchedWord := by
    simp [State.moving, State.stopping, hstop, (hphase.atBoundary hf).ending]
  have hstep : step s = exec s.moving s := by
    unfold step
    rw [hin]
    exact if_pos hb
  have hnamed : (planOf s.lOp s s.seq).map Stage.action = some (s.actionAt s.seq) := by
    rw [planOf_action, if_pos (h.label hb)]
  obtain ⟨stage, hstage, haction⟩ := Option.map_eq_some_iff.mp hnamed
  rw [hstep, hmoving, exec_latchedWord (by simp [hin]) (lOp_ne_stop (h.label hb))]
  simp [runCommand, hin, hf, hstage, haction]

/-- Settles O25: the action of the label, with WREM as the launch sets it. -/
theorem sequencerIssuesTheNamedAction : Obligations.SequencerIssuesTheNamedAction := by
  intro s rest h hb hf hstop hin
  obtain ⟨-, -, hphase⟩ := (State.inv_iff_of_busy hb).mp h
  obtain ⟨n, hs, hn⟩ := State.launchAction_eq (s := s.popInput) (hphase.atBoundary hf).wrem (h.waitBounded_actionAt hb)
  refine ⟨s.actionAt s.seq, n, ?_, hn, ?_⟩
  · rw [step_sequencer h hb hf hstop hin, hs]
    simp [State.popInput, hin]
  · cases s.seq <;> rfl

end Sys2Proof.Machine
end

section
/-! Accesses the window turns away, the platform's decoder, and the latches of a running command (O20, O23, O24). The latches are
written by acceptance and reset alone, and no command is accepted while BUSY: every other operation a step is made of keeps them. -/

namespace Sys2Proof.Machine

/-! ### Accesses that are turned away (R52) -/

theorem accessOk_eq_false {off : BitVec 5} {size : Nat} (h : size ≠ 4 ∨ off.toNat % 4 ≠ 0) : accessOk off size = false := by
  simpa [accessOk, imp_iff_not_or] using h

/-- A write that is turned away issues no command. -/
theorem cmdWord_write_of_not_accessOk {off : BitVec 5} {size : Nat} {w : Word} (h : accessOk off size = false) :
    HostAccess.cmdWord (.write off size w) = none := by
  simp [HostAccess.cmdWord, h]

/-- Settles O23: an access that is turned away is no CMD write, and the window answers it with the error alone. -/
theorem otherAccessesAreBusErrors : Obligations.OtherAccessesAreBusErrors := by
  intro s off size w rest hbad hin
  have hok := accessOk_eq_false hbad
  obtain hin | hin := hin
  · rw [step_read hin]
    simp [State.hostRead, hok, State.popInput, hin]
  · rw [step_write hin (cmdWord_write_of_not_accessOk hok)]
    simp [State.hostWrite, hok, State.popInput, hin]

/-! ### The platform's decoder (R51) -/

/-- `BASE` has no offset bits, so an address in the window has the offset bits of its distance from `BASE`. -/
theorem ofNat_base_add (k : Nat) : BitVec.ofNat 5 (Config.base + k) = BitVec.ofNat 5 k := by
  apply BitVec.eq_of_toNat_eq
  simp only [BitVec.toNat_ofNat, Config.base]
  omega

/-- Settles O24: in the window the offset bits survive the sum, and outside it the range test fails. -/
theorem windowIsDecodedAtBase : Obligations.WindowIsDecodedAtBase := by
  refine ⟨Nat.mul_mod_right 32 Config.baseIndex, fun k hk => ?_, fun a ha => ?_⟩
  · simp [windowOffset, hk, ofNat_base_add]
  · refine if_neg ?_
    simp only [Bool.and_eq_true, decide_eq_true_eq]
    omega

/-! ### The latches and the CMD read-back (R21, R38) -/

/-- What a running command was accepted with: the six latches and CMDLAT. -/
def State.configuration (s : State) : BitVec 4 × BitVec 6 × BitVec 6 × BitVec 16 × BitVec 2 × Bool × Word :=
  (s.lOp, s.lPin, s.lFreq, s.lArg, s.lVerb, s.lSfilt, s.cmdLat)

theorem State.configuration_eq_iff {s t : State} : t.configuration = s.configuration ↔
    t.lOp = s.lOp ∧ t.lPin = s.lPin ∧ t.lFreq = s.lFreq ∧ t.lArg = s.lArg ∧ t.lVerb = s.lVerb ∧ t.lSfilt = s.lSfilt ∧
      t.cmdLat = s.cmdLat := by
  simp only [State.configuration, Prod.mk.injEq]

@[simp] theorem State.configuration_popInput (s : State) : s.popInput.configuration = s.configuration := rfl

@[simp] theorem State.configuration_terminate (k : EndKind) (before s : State) :
    (State.terminate k before s).configuration = s.configuration := by
  simp [State.configuration]

@[simp] theorem State.configuration_raiseFault (code : FaultCode) (before s : State) :
    (s.raiseFault code before).configuration = s.configuration :=
  State.configuration_terminate _ before s

@[simp] theorem State.configuration_closeAnswered (s : State) : s.closeAnswered.configuration = s.configuration := by
  obtain ⟨e, -, hs⟩ | ⟨-, hs⟩ := State.closeAnswered_cases s <;> rw [hs]
  simp [State.configuration, State.closed_eq]

@[simp] theorem State.configuration_launchAction (a : Action) (s : State) :
    (s.launchAction a).configuration = s.configuration := by
  cases a <;> rfl

@[simp] theorem State.configuration_driven (p : BitVec 6) (v : Bool) (s : State) :
    (s.driven p v).configuration = s.configuration := by
  obtain ⟨trace, hs⟩ := State.driven_eq p v s
  rw [hs]
  rfl

/-! ### The answers -/

@[simp] theorem Progress.configuration_settle (before : State) (p : Progress) :
    (p.settle before).configuration = p.reached.configuration := by
  cases p with
  | goto l u => rfl
  | finished u => exact State.configuration_terminate .done before u

theorem FramedNext.configuration_settle {next : State → Progress} (h : FramedNext next) (before u : State) :
    ((next u).settle before).configuration = u.configuration := by
  obtain ⟨usec, trace, hs⟩ := h u
  rw [Progress.configuration_settle, hs]
  rfl

theorem configuration_onGpio {evaluates : Prop} {stage : Stage} (h : stage.Framed evaluates) (ok level : Bool) (s : State) :
    (stage.onGpio ok level s).configuration = s.configuration := by
  obtain ⟨next, rfl, -, hs⟩ | ⟨next, rfl, -, hs⟩ | ⟨p, next, rfl, -, hs⟩ | ⟨p, next, rfl, -, hs⟩ |
    ⟨p, v, next, rfl, -, hs⟩ | ⟨p, v, next, rfl, -, hs⟩ | ⟨p, next, rfl, -, hs⟩ | ⟨p, next, rfl, -, hs⟩ | ⟨hs, -⟩ :=
    onGpio_cases ok level s stage <;> rw [hs]
  · exact FramedNext.configuration_settle h s s.opened
  · exact State.configuration_raiseFault _ s _
  · exact FramedNext.configuration_settle h s (s.configured p)
  · exact State.configuration_raiseFault _ s _
  · exact (FramedNext.configuration_settle h s (s.driven p v)).trans (s.configuration_driven p v)
  · exact State.configuration_raiseFault _ s _
  · exact (h (s.readback p level)).configuration_settle s (s.sampled p (s.readback p level))
  · exact State.configuration_raiseFault _ s _

theorem configuration_onSensor {evaluates : Prop} {stage : Stage} (h : stage.Framed evaluates) (ok : Bool) (r : Word)
    (s : State) : (stage.onSensor ok r s).configuration = s.configuration := by
  obtain ⟨next, rfl, -, hs⟩ | ⟨next, rfl, -, hs⟩ | ⟨next, rfl, hs⟩ | ⟨hs, -⟩ := onSensor_cases ok r s stage <;> rw [hs]
  · exact FramedNext.configuration_settle h s s.bound
  · exact State.configuration_raiseFault _ s _
  · obtain ⟨usec, trace, perc, sleep, hreached, -⟩ := h r (s.temperature r)
    rw [Progress.configuration_settle, hreached]
    rfl

theorem configuration_waitTick {next : State → Progress} (h : FramedNext next) (n : Nat) (s : State) :
    (s.waitTick n next).configuration = s.configuration := by
  obtain ⟨-, hs⟩ | ⟨-, -, hs⟩ | ⟨-, -, hs⟩ := waitTick_cases n next s <;> rw [hs]
  · exact h.configuration_settle s (s.waited n)
  · rfl
  · rfl

/-! ### The host's side -/

/-- While BUSY no command is accepted (R122). -/
theorem State.configuration_issue {s : State} (hb : s.state = .busy) (w : Word) (valid : Bool) (entry : Label) :
    (s.issue w valid entry).configuration = s.configuration := by
  rw [State.issue, if_pos hb]
  rfl

@[simp] theorem State.configuration_requestStop (s : State) : s.requestStop.configuration = s.configuration := by
  unfold State.requestStop
  split <;> rfl

@[simp] theorem State.configuration_hostRead (off : BitVec 5) (size : Nat) (s : State) :
    (s.hostRead off size).configuration = s.configuration := by
  unfold State.hostRead
  split <;> rfl

/-- A CTRL write stores VERB and SFILT, not their latches (R31, R38). -/
@[simp] theorem State.configuration_hostWrite (off : BitVec 5) (size : Nat) (w : Word) (s : State) :
    (s.hostWrite off size w).configuration = s.configuration := by
  unfold State.hostWrite
  split
  · split <;> rfl
  · rfl

/-! ### Every step of a running command -/

theorem configuration_of_runCommand {op : BitVec 4} {s t : State} (h : runCommand (planOf op) s = .next t) :
    t.configuration = s.configuration := by
  obtain ⟨-, -, stage, -, rfl⟩ | ⟨ok, level, -, -, rfl⟩ | ⟨ok, level, a, stage, -, -, -, hs, rfl⟩ |
    ⟨ok, r, a, stage, -, -, -, hs, rfl⟩ | ⟨m, n, next, -, -, hs, rfl⟩ | rfl := runCommand_next h
  · exact State.configuration_launchAction stage.action s.popInput
  · exact State.configuration_closeAnswered s.popInput
  · exact configuration_onGpio (planOf_framed hs) ok level s.popInput
  · exact configuration_onSensor (planOf_framed hs) ok r s.popInput
  · exact configuration_waitTick (planOf_framed hs) n s.popInput
  · rfl

theorem configuration_of_execStop {pin freq : BitVec 6} {arg : BitVec 16} {s t : State}
    (h : execStop pin freq arg s = .next t) : t.configuration = s.configuration := by
  obtain ⟨a, rest, -, hstop⟩ | hhost := execStop_cases pin freq arg s
  · obtain rfl : s.popInput.requestStop = t := by simpa [hstop] using h
    exact State.configuration_requestStop s.popInput
  · obtain ⟨-, -, -, -, rfl⟩ | ⟨ok, level, -, -, rfl⟩ | rfl := execStop_next hhost h
    · exact State.configuration_terminate .stopped s.popInput s.popInput
    · exact State.configuration_closeAnswered s.popInput
    · rfl

theorem configuration_of_exec {i : Instr} {s t : State} (hb : s.state = .busy) (h : exec i s = .next t) :
    t.configuration = s.configuration := by
  obtain ⟨pin, freq, arg, -, hexec⟩ | ⟨valid, entry, hexec⟩ := exec_cases i <;> rw [hexec] at h
  · exact configuration_of_execStop h
  · obtain ⟨a, rest, -, hissue⟩ | ⟨-, hrun⟩ := command_cases i valid entry (planOf (Laws.opcode i)) s
    · obtain rfl : s.popInput.issue (encode i) valid entry = t := by simpa [hissue] using h
      exact State.configuration_issue (s := s.popInput) hb _ _ _
    · exact configuration_of_runCommand (hrun ▸ h)

theorem configuration_of_step {s t : State} (hb : s.state = .busy) (hreset : s.inputs.head? ≠ some .reset)
    (h : step s = .next t) : t.configuration = s.configuration := by
  obtain ⟨rest, hin, -⟩ | ⟨a, rest, w, -, -, hs⟩ | ⟨off, size, rest, -, hs⟩ | ⟨off, size, w, rest, -, -, hs⟩ |
    ⟨-, -, -, hs⟩ | ⟨-, -, hnot, -⟩ := step_cases s
  · exact absurd (congrArg List.head? hin) hreset
  · exact configuration_of_exec hb (hs ▸ h)
  · obtain rfl : s.popInput.hostRead off size = t := by simpa [hs] using h
    exact State.configuration_hostRead off size s.popInput
  · obtain rfl : s.popInput.hostWrite off size w = t := by simpa [hs] using h
    exact State.configuration_hostWrite off size w s.popInput
  · exact configuration_of_exec hb (hs ▸ h)
  · exact absurd hb hnot

/-- Settles O20: whatever moves a running command, its step keeps the configuration. -/
theorem runningCommandKeepsItsConfiguration : Obligations.RunningCommandKeepsItsConfiguration := by
  intro s t hb hreset hstep
  exact State.configuration_eq_iff.mp (configuration_of_step hb hreset hstep)

end Sys2Proof.Machine
end

section
/-! The encoding of a command (O1 to O3): a word is its four fields, a command is its code and its three operands, and the
decoder and the encoder take the one for the other. -/

namespace Sys2Proof

/-- The operands a command carries: PIN, FREQ and ARG as the host wrote them (R70). -/
def Instr.operands : Instr → BitVec 6 × BitVec 6 × BitVec 16
  | .fixed pin freq arg | .hyst pin freq arg | .thermo pin freq arg | .rpin pin freq arg | .rtemp pin freq arg
  | .pulse pin freq arg | .stop pin freq arg | .reserved0 pin freq arg | .reserved8 pin freq arg
  | .reserved9 pin freq arg | .reservedA pin freq arg | .reservedB pin freq arg | .reservedC pin freq arg
  | .reservedD pin freq arg | .reservedE pin freq arg | .reservedF pin freq arg => (pin, freq, arg)

/-- The encoder packs the code of the opcode map and the operands. -/
theorem encode_eq_packCmd (i : Instr) :
    encode i = packCmd (Laws.opcode i) i.operands.1 i.operands.2.1 i.operands.2.2 := by
  cases i <;> rfl

/-- OP of a command's word is its code (R78, R79). -/
@[simp] theorem fieldOp_encode (i : Instr) : fieldOp (encode i) = Laws.opcode i := by
  rw [encode_eq_packCmd, fieldOp_packCmd]

/-- The decoder carries the fields of the word over, whatever the operation. -/
theorem operands_decodeWord (w : Word) : (decodeWord w).operands = (fieldPin w, fieldFreq w, fieldArg w) := by
  unfold decodeWord
  dsimp only
  split <;> rfl

/-- OP of a command's word selects its own constructor again, and the fields are its operands (R78). -/
theorem decodeWord_encode (i : Instr) : decodeWord (encode i) = i := by
  cases i <;> simp only [decodeWord, encode, fieldOp_packCmd, fieldPin_packCmd, fieldFreq_packCmd, fieldArg_packCmd] <;> rfl

theorem encode_decodeWord (w : Word) : encode (decodeWord w) = w := by
  rw [encode_eq_packCmd, operands_decodeWord, Machine.opcode_decodeWord, packCmd_fields]

/-- A byte string shorter than a command is rejected with its length (R82). -/
theorem decode_of_length_lt {bs : List Byte} (h : bs.length < 4) : decode bs = .error (.truncated bs.length) := by
  match bs with
  | [] | [_] | [_, _] | [_, _, _] => rfl
  | _ :: _ :: _ :: _ :: _ => simp only [List.length_cons] at h; omega

/-- OP is the word modulo 16 (R71). -/
theorem toNat_fieldOp (w : Word) : (fieldOp w).toNat = w.toNat % 16 := by
  simp [fieldOp]

/-- Settles O1: the four lanes of the encoded word are read as that word, and the word as its command. -/
theorem decodingAnEncodedCommandGivesItBack : Obligations.DecodingAnEncodedCommandGivesItBack := by
  intro i rest
  refine ⟨decodeWord_encode i, ?_⟩
  rw [encodeBytes, decode_lanes, decodeWord_encode]

/-- Settles O2: code and operands of the decoded command are the fields of the word. -/
theorem everyWordIsTheWordOfItsCommand : Obligations.EveryWordIsTheWordOfItsCommand :=
  ⟨encode_decodeWord, fun _ => decode_of_length_lt⟩

/-- Settles O3: the decoder's command has the code in OP, and each code its mnemonic. -/
theorem opAloneSelectsTheOperation : Obligations.OpAloneSelectsTheOperation := by
  intro w
  rw [← toNat_fieldOp, ← Machine.opcode_decodeWord]
  cases decodeWord w <;> rfl

end Sys2Proof
end

section
/-! What a CMD write does, whatever its word (O4, O16): STOP is a request; any other word is issued, with `valid(w)` and the entry
label of its operation (R122 to R126, R129). -/

namespace Sys2Proof.Machine

/-! ### The event of a CMD write -/

/-- The event of a CMD write of `w` (R122). -/
def State.cmdWrite (w : Word) (s : State) : State :=
  if fieldOp w = 7 then s.requestStop else s.issue w (validWord w) (entryOf (fieldOp w))

theorem pinLegal_eq (pin : BitVec 6) : pinLegal pin = decide (pin.toNat ≤ 53) := decide_eq_decide.mpr Nat.lt_succ_iff

theorem freqLegal_eq (freq : BitVec 6) : freqLegal freq = decide (freq.toNat ≤ 50) := rfl

theorem dutyLegal_eq (arg : BitVec 16) : dutyLegal arg = decide (arg.toNat ≤ 100) := rfl

/-- The operations that read ARG as a duty (R74, R75). -/
def readsDuty (op : BitVec 4) : Bool := op ∈ [1, 6]

/-- A word is valid when its OP names a command other than STOP and each field the command uses is in range (R75, R125). -/
theorem validWord_eq (w : Word) :
    validWord w = (decide (fieldOp w ∈ ([1, 2, 3, 4, 5, 6] : List (BitVec 4))) &&
      (!usesPin (fieldOp w) || pinLegal (fieldPin w)) && (!usesFreq (fieldOp w) || freqLegal (fieldFreq w)) &&
      (!readsDuty (fieldOp w) || dutyLegal (fieldArg w))) := by
  have hop : fieldOp w = BitVec.ofNat 4 (fieldOp w).toNat := by simp
  have hlt := (fieldOp w).isLt
  unfold validWord
  rw [pinLegal_eq, freqLegal_eq, dutyLegal_eq]
  generalize (fieldOp w).toNat = n at hop hlt
  rw [hop]
  interval_cases n <;> simp [usesPin, usesFreq, readsDuty]

/-- A command that issues its word when it is valid, from the entry label of its operation, performs the CMD write. -/
theorem command_of_host {i : Instr} {valid : Bool} {entry : Label} {plan : State → Label → Option Stage} {s : State}
    {a : HostAccess} {rest : List Input} (hin : s.inputs = .host a :: rest) (hop : Laws.opcode i ≠ 7)
    (hvalid : validWord (encode i) = valid) (hentry : valid = true → entryOf (Laws.opcode i) = entry) :
    command i valid entry plan s = .next (s.popInput.cmdWrite (encode i)) := by
  have hissue : s.popInput.cmdWrite (encode i) = s.popInput.issue (encode i) valid entry := by
    rw [State.cmdWrite, fieldOp_encode, if_neg hop, hvalid]
    cases valid with
    | false => rfl
    | true => rw [hentry rfl]
  rw [hissue, command, hin]

/-- When a host access stands next, `exec` is the CMD write of its command's word. -/
theorem exec_of_host {s : State} {a : HostAccess} {rest : List Input} (hin : s.inputs = .host a :: rest) (i : Instr) :
    exec i s = .next (s.popInput.cmdWrite (encode i)) := by
  have hvalid := validWord_eq (encode i)
  rw [fieldOp_encode] at hvalid
  cases i with
  | stop pin freq arg => simp [exec, execStop, hin, State.cmdWrite, Laws.opcode]
  | fixed pin freq arg | hyst pin freq arg | thermo pin freq arg | rpin pin freq arg | rtemp pin freq arg
  | pulse pin freq arg =>
    refine command_of_host hin (by simp [Laws.opcode]) ?_ fun _ => rfl
    simpa [Laws.opcode, encode, usesPin, usesFreq, readsDuty] using hvalid
  | _ pin freq arg => exact command_of_host hin (by simp [Laws.opcode]) hvalid fun hv => by cases hv

/-- An accepted CMD write is the event of its word, whatever the word (R21). -/
theorem step_cmdWord {s : State} {a : HostAccess} {rest : List Input} {w : Word} (hin : s.inputs = .host a :: rest)
    (hw : a.cmdWord = some w) : step s = .next (s.popInput.cmdWrite w) := by
  have hexec : step s = exec (decodeWord w) s := by
    unfold step; rw [hin]; dsimp only; rw [hw]
  rw [hexec, exec_of_host hin, encode_decodeWord]

/-- While BUSY a word other than STOP is rejected (R122). -/
theorem State.cmdWrite_of_busy {s : State} {w : Word} (hop : fieldOp w ≠ 7) (hb : s.state = .busy) :
    s.cmdWrite w = { s with rej := true, bus := .written } := by
  rw [State.cmdWrite, if_neg hop, State.issue, if_pos hb]

/-- Outside BUSY a word that fails validation is accepted and ends at once in FAULT_USAGE (R124). -/
theorem State.cmdWrite_of_not_valid {s : State} {w : Word} (hop : fieldOp w ≠ 7) (hvalid : validWord w = false)
    (hb : s.state ≠ .busy) : s.cmdWrite w = (s.accept w).finish (.fault .usage) := by
  rw [State.cmdWrite, if_neg hop, State.issue, if_neg hb, hvalid, if_neg Bool.false_ne_true]
  exact State.terminate_of_not_held (s := s.accept w) rfl _ _

/-! ### The statements -/

/-- Settles O16: no reserved operation is valid. -/
theorem reservedOperationsFaultUsage : Obligations.ReservedOperationsFaultUsage := by
  intro pin freq arg i s rest hi hin
  have hcode : Laws.opcode i ∉ ([1, 2, 3, 4, 5, 6, 7] : List (BitVec 4)) := by
    simp only [List.mem_cons, List.not_mem_nil, or_false] at hi
    obtain rfl | rfl | rfl | rfl | rfl | rfl | rfl | rfl | rfl := hi <;> simp [Laws.opcode]
  rw [← fieldOp_encode] at hcode
  have hop : fieldOp (encode i) ≠ 7 := fun h => hcode (by rw [h]; decide)
  have hvalid : validWord (encode i) = false := by
    rw [validWord_eq, decide_eq_false fun h => hcode (List.mem_append_left [7] h)]
    rfl
  rw [exec_of_host hin]
  refine ⟨fun hb => ⟨_, rfl, ?_⟩, fun hb => ?_⟩
  · rw [State.cmdWrite_of_not_valid (s := s.popInput) hop hvalid hb]
    exact ⟨rfl, rfl, rfl, rfl, rfl, rfl, rfl, rfl, rfl, rfl, congrArg List.tail hin⟩
  · rw [State.cmdWrite_of_busy (s := s.popInput) hop hb]
    simp [State.popInput, hin]

/-- Settles O4: the lines by evaluation of the assembler, the four words because they fail validation. -/
theorem encodingExamples : Obligations.EncodingExamples := by
  have hwords : ∀ w ∈ ([0x001E6761, 0x00656521, 0x001ECD21, 0x00000000] : List Word), fieldOp w ≠ 7 ∧ validWord w = false := by
    simp [validWord, fieldOp, fieldPin, fieldFreq, fieldArg]
  iterate 17 refine ⟨by decide, ?_⟩
  intro w hw
  obtain ⟨hop, hvalid⟩ := hwords w hw
  have hin : (State.reset.withFetchWord 32 w.toNat).inputs = [.host (.write 0 4 w)] := by
    simp [State.withFetchWord, tableWord, State.reset, Nat.mod_eq_of_lt w.isLt]
  refine ⟨_, step_cmdWord hin rfl, ?_⟩
  rw [State.cmdWrite_of_not_valid hop hvalid (by simp [State.withFetchWord, State.reset])]
  exact ⟨rfl, rfl, rfl⟩

end Sys2Proof.Machine
end

section
/-! The assembler and the disassembler (O5): an accepted line is the word of a well-formed command whose ignored fields are 0, and
the line printed for such a command is accepted and gives its word. -/

namespace Sys2Proof.Machine

/-! ### Well-formed commands (R72 to R75) -/

theorem wellFormed_fixed_iff (pin freq : BitVec 6) (arg : BitVec 16) :
    (Instr.fixed pin freq arg).wellFormed = true ↔ pin.toNat ≤ 53 ∧ freq.toNat ≤ 50 ∧ arg.toNat ≤ 100 := by
  simp only [Instr.wellFormed, Instr.illFormed]
  split_ifs <;> simp <;> omega

theorem wellFormed_pulse_iff (pin freq : BitVec 6) (arg : BitVec 16) :
    (Instr.pulse pin freq arg).wellFormed = true ↔ pin.toNat ≤ 53 ∧ freq.toNat ≤ 50 ∧ arg.toNat ≤ 100 :=
  wellFormed_fixed_iff pin freq arg

theorem wellFormed_hyst_iff (pin freq : BitVec 6) (arg : BitVec 16) :
    (Instr.hyst pin freq arg).wellFormed = true ↔ pin.toNat ≤ 53 := by
  simp [Instr.wellFormed, Instr.illFormed]

theorem wellFormed_rpin_iff (pin freq : BitVec 6) (arg : BitVec 16) :
    (Instr.rpin pin freq arg).wellFormed = true ↔ pin.toNat ≤ 53 :=
  wellFormed_hyst_iff pin freq arg

theorem wellFormed_thermo_iff (pin freq : BitVec 6) (arg : BitVec 16) :
    (Instr.thermo pin freq arg).wellFormed = true ↔ pin.toNat ≤ 53 ∧ freq.toNat ≤ 50 := by
  simp only [Instr.wellFormed, Instr.illFormed]
  split_ifs <;> simp <;> omega

/-- The fields the command ignores (R75) are 0, as the assembler leaves them (R83). -/
def Instr.ignoredZero : Instr → Prop
  | .hyst _ freq _ => freq = 0
  | .rpin _ freq arg => freq = 0 ∧ arg = 0
  | .rtemp pin freq arg | .stop pin freq arg => pin = 0 ∧ freq = 0 ∧ arg = 0
  | _ => True

/-! ### Assembling -/

/-- The assembler packs the fields when each is in range, and refuses otherwise (R83). -/
theorem assembleFields_eq_some_iff {op : BitVec 4} {pin : Nat} {freq : Option Nat} {arg : BitVec 16} {ok : Bool} {w : Word} :
    assembleFields op pin freq arg ok = some w ↔
      (pin ≤ 53 ∧ freq.getD 0 ≤ 50 ∧ ok = true) ∧ packCmd op (BitVec.ofNat 6 pin) (BitVec.ofNat 6 (freq.getD 0)) arg = w := by
  simp [assembleFields, nPins, freqMax, Nat.lt_succ_iff]

/-- An operand in range fills a field in range. -/
theorem toNat_ofNat_le {w n k : Nat} (h : n ≤ k) : (BitVec.ofNat w n).toNat ≤ k := by
  rw [BitVec.toNat_ofNat]
  exact (Nat.mod_le _ _).trans h

/-- What the assembler accepts from a mnemonic line is the word of a well-formed command with ignored fields 0. -/
theorem assemble_eq_some {l : AsmLine} {w : Word} (hl : ∀ v, l ≠ .word v) (h : assemble l = some w) :
    ∃ i : Instr, encode i = w ∧ i.wellFormed = true ∧ Instr.ignoredZero i := by
  cases l with
  | word v => exact absurd rfl (hl v)
  | rtemp => exact ⟨.rtemp 0 0 0, Option.some.inj h, rfl, rfl, rfl, rfl⟩
  | stop => exact ⟨.stop 0 0 0, Option.some.inj h, rfl, rfl, rfl, rfl⟩
  | fixed pin duty freq =>
    obtain ⟨⟨hpin, hfreq, hduty⟩, hw⟩ := assembleFields_eq_some_iff.mp h
    exact ⟨.fixed _ _ _, hw, (wellFormed_fixed_iff _ _ _).mpr
      ⟨toNat_ofNat_le hpin, toNat_ofNat_le hfreq, toNat_ofNat_le (of_decide_eq_true hduty)⟩, trivial⟩
  | pulse pin duty freq =>
    obtain ⟨⟨hpin, hfreq, hduty⟩, hw⟩ := assembleFields_eq_some_iff.mp h
    exact ⟨.pulse _ _ _, hw, (wellFormed_pulse_iff _ _ _).mpr
      ⟨toNat_ofNat_le hpin, toNat_ofNat_le hfreq, toNat_ofNat_le (of_decide_eq_true hduty)⟩, trivial⟩
  | fanOn pin =>
    obtain ⟨⟨hpin, hfreq, -⟩, hw⟩ := assembleFields_eq_some_iff.mp h
    exact ⟨.fixed _ _ 100, hw, (wellFormed_fixed_iff _ _ _).mpr ⟨toNat_ofNat_le hpin, toNat_ofNat_le hfreq, by decide⟩, trivial⟩
  | fanOff pin =>
    obtain ⟨⟨hpin, hfreq, -⟩, hw⟩ := assembleFields_eq_some_iff.mp h
    exact ⟨.fixed _ _ 0, hw, (wellFormed_fixed_iff _ _ _).mpr ⟨toNat_ofNat_le hpin, toNat_ofNat_le hfreq, by decide⟩, trivial⟩
  | hyst pin target =>
    obtain ⟨⟨hpin, -⟩, hw⟩ := assembleFields_eq_some_iff.mp h
    exact ⟨.hyst _ 0 _, hw, (wellFormed_hyst_iff _ _ _).mpr (toNat_ofNat_le hpin), rfl⟩
  | thermo pin target freq =>
    obtain ⟨⟨hpin, hfreq, -⟩, hw⟩ := assembleFields_eq_some_iff.mp h
    exact ⟨.thermo _ _ _, hw, (wellFormed_thermo_iff _ _ _).mpr ⟨toNat_ofNat_le hpin, toNat_ofNat_le hfreq⟩, trivial⟩
  | rpin pin =>
    obtain ⟨⟨hpin, -⟩, hw⟩ := assembleFields_eq_some_iff.mp h
    exact ⟨.rpin _ 0 0, hw, (wellFormed_rpin_iff _ _ _).mpr (toNat_ofNat_le hpin), rfl, rfl⟩

/-! ### Disassembling -/

/-- A FREQ field of 0 is shown as "not given", which stands for 0 again (R73). -/
theorem freqShown_getD (freq : BitVec 6) : (freqShown freq).getD 0 = freq.toNat := by
  unfold freqShown
  split
  · next h => rw [h]; rfl
  · rfl

/-- The assembler packs the fields of a command back as they were. -/
theorem assembleFields_toNat {op : BitVec 4} {pin freq : BitVec 6} {arg arg' : BitVec 16} {shown : Option Nat} {ok : Bool}
    (hpin : pin.toNat ≤ 53) (hfreq : freq.toNat ≤ 50) (hshown : shown.getD 0 = freq.toNat) (harg : arg' = arg)
    (hok : ok = true) : assembleFields op pin.toNat shown arg' ok = some (packCmd op pin freq arg) := by
  rw [assembleFields_eq_some_iff, hshown, harg]
  exact ⟨⟨hpin, hfreq, hok⟩, by simp⟩

/-- A 16-bit field always holds a target the assembler takes. -/
theorem targetFits_toInt (arg : BitVec 16) : targetFits arg.toInt = true := by
  have hlow := BitVec.le_toInt arg
  have hhigh := BitVec.toInt_lt (x := arg)
  simp only [targetFits, Bool.and_eq_true, decide_eq_true_eq]
  omega

/-- The line of a well-formed command with ignored fields 0 assembles to its word. -/
theorem assemble_disassemble_encode {i : Instr} (hwf : i.wellFormed = true) (hz : Instr.ignoredZero i) :
    assemble (disassemble (encode i)) = some (encode i) := by
  unfold disassemble
  rw [decodeWord_encode]
  cases i with
  | fixed pin freq arg =>
    obtain ⟨hpin, hfreq, hduty⟩ := (wellFormed_fixed_iff _ _ _).mp hwf
    exact assembleFields_toNat hpin hfreq (freqShown_getD freq) (by simp) (decide_eq_true hduty)
  | pulse pin freq arg =>
    obtain ⟨hpin, hfreq, hduty⟩ := (wellFormed_pulse_iff _ _ _).mp hwf
    exact assembleFields_toNat hpin hfreq (freqShown_getD freq) (by simp) (decide_eq_true hduty)
  | thermo pin freq arg =>
    obtain ⟨hpin, hfreq⟩ := (wellFormed_thermo_iff _ _ _).mp hwf
    exact assembleFields_toNat hpin hfreq (freqShown_getD freq) BitVec.ofInt_toInt (targetFits_toInt arg)
  | hyst pin freq arg =>
    obtain rfl : freq = 0 := hz
    have hpin := (wellFormed_hyst_iff _ _ _).mp hwf
    exact assembleFields_toNat hpin (Nat.zero_le 50) rfl BitVec.ofInt_toInt (targetFits_toInt arg)
  | rpin pin freq arg =>
    obtain ⟨rfl, rfl⟩ := hz
    have hpin := (wellFormed_rpin_iff _ _ _).mp hwf
    exact assembleFields_toNat hpin (Nat.zero_le 50) rfl rfl rfl
  | rtemp pin freq arg | stop pin freq arg =>
    obtain ⟨rfl, rfl, rfl⟩ := hz
    rfl
  | _ => cases hwf

/-- Settles O5: every accepted line stands for a well-formed command, whose printed line gives its word. -/
theorem assembledLinesAreLegalAndDisassemble : Obligations.AssembledLinesAreLegalAndDisassemble := by
  intro l w hl h
  obtain ⟨i, rfl, hwf, hz⟩ := assemble_eq_some hl h
  rw [decodeWord_encode]
  exact ⟨hwf, assemble_disassemble_encode hwf hz⟩

end Sys2Proof.Machine
end

section
/-! Ignored fields (O19). Two states that agree on everything used differ by a replacement of what no step reads
(`State.replace`). A running command's plan is the same at both, its computations commute with the replacement, and so does every
operation of the sequencer's side; a CMD write outside BUSY overwrites what was replaced. -/

namespace Sys2Proof.Machine

/-! ### What is replaced -/

/-- Values for the CMD read-back, the latches that some operation ignores, and the bus answer. -/
structure Unread where
  cmdLat : Word
  pin : BitVec 6
  freq : BitVec 6
  arg : BitVec 16
  bus : BusResponse

/-- The state with these values instead of its own. -/
def State.replace (x : Unread) (s : State) : State :=
  { s with cmdLat := x.cmdLat, lPin := x.pin, lFreq := x.freq, lArg := x.arg, bus := x.bus }

/-- The replacement keeps the latches the operation of `s` uses (R75). -/
def Unread.Fits (x : Unread) (s : State) : Prop :=
  (usesPin s.lOp = true → x.pin = s.lPin) ∧ (usesFreq s.lOp = true → x.freq = s.lFreq) ∧
    (usesArg s.lOp = true → x.arg = s.lArg)

@[simp] theorem State.replace_state (x : Unread) (s : State) : (s.replace x).state = s.state := rfl
@[simp] theorem State.replace_seq (x : Unread) (s : State) : (s.replace x).seq = s.seq := rfl
@[simp] theorem State.replace_inFlight (x : Unread) (s : State) : (s.replace x).inFlight = s.inFlight := rfl
@[simp] theorem State.replace_ending (x : Unread) (s : State) : (s.replace x).ending = s.ending := rfl
@[simp] theorem State.replace_epoch (x : Unread) (s : State) : (s.replace x).epoch = s.epoch := rfl
@[simp] theorem State.replace_inputs (x : Unread) (s : State) : (s.replace x).inputs = s.inputs := rfl
@[simp] theorem State.popInput_replace (x : Unread) (s : State) : (s.replace x).popInput = s.popInput.replace x := rfl

/-- Agreeing states are a replacement apart. -/
theorem State.agreesOnUsed_iff {s t : State} : s.agreesOnUsed t ↔ ∃ x : Unread, x.Fits s ∧ t = s.replace x := by
  unfold State.agreesOnUsed
  constructor
  · intro h
    have hpin := congrArg State.lPin h
    have hfreq := congrArg State.lFreq h
    have harg := congrArg State.lArg h
    dsimp only at hpin hfreq harg
    refine ⟨⟨t.cmdLat, t.lPin, t.lFreq, t.lArg, t.bus⟩, ⟨fun hu => ?_, fun hu => ?_, fun hu => ?_⟩, ?_⟩
    · exact hpin.trans (if_pos hu)
    · exact hfreq.trans (if_pos hu)
    · exact harg.trans (if_pos hu)
    · rwa [← hpin, ← hfreq, ← harg] at h
  · rintro ⟨x, ⟨hpin, hfreq, harg⟩, rfl⟩
    have keep {α : Type} {u : Prop} [Decidable u] {a b : α} (h : u → a = b) : (if u then b else a) = a :=
      ite_eq_right_iff.mpr fun hu => (h hu).symm
    simp only [State.replace, keep hpin, keep hfreq, keep harg]

theorem State.agreesOnUsed_replace {x : Unread} {s : State} (h : x.Fits s) : s.agreesOnUsed (s.replace x) :=
  State.agreesOnUsed_iff.mpr ⟨x, h, rfl⟩

theorem State.agreesOnUsed_refl (s : State) : s.agreesOnUsed s :=
  State.agreesOnUsed_replace (x := ⟨s.cmdLat, s.lPin, s.lFreq, s.lArg, s.bus⟩) ⟨fun _ => rfl, fun _ => rfl, fun _ => rfl⟩

/-- A step that keeps the latches keeps the fit. -/
theorem Unread.Fits.of_configuration {x : Unread} {s t : State} (h : x.Fits s) (hc : t.configuration = s.configuration) :
    x.Fits t := by
  obtain ⟨hop, hpin, hfreq, harg, -⟩ := State.configuration_eq_iff.mp hc
  unfold Unread.Fits
  rwa [hop, hpin, hfreq, harg]

/-- No register but CMD shows what is replaced (R20 to R33). -/
theorem State.readSlot_replace (x : Unread) (s : State) {slot : Slot} (h : slot ≠ .cmd) :
    (s.replace x).readSlot slot = s.readSlot slot := by
  cases slot with
  | cmd => exact absurd rfl h
  | _ => rfl

/-! ### Ending a command -/

theorem State.finish_replace (x : Unread) (k : EndKind) (s : State) : (s.replace x).finish k = (s.finish k).replace x := by
  cases k <;> rfl

theorem State.terminate_replace (x : Unread) (k : EndKind) (before s : State) :
    State.terminate k (before.replace x) (s.replace x) = (State.terminate k before s).replace x := by
  obtain ⟨hheld, hs⟩ | ⟨hheld, hs⟩ := State.terminate_cases k before s <;> rw [hs]
  · exact State.terminate_of_held (s := s.replace x) hheld k _
  · rw [State.terminate_of_not_held (s := s.replace x) hheld, State.finish_replace]

theorem State.stopStep_replace (x : Unread) (s : State) : (s.replace x).stopStep = s.stopStep.replace x :=
  State.terminate_replace x .stopped s s

theorem State.closeAnswered_replace (x : Unread) (s : State) : (s.replace x).closeAnswered = s.closeAnswered.replace x := by
  obtain ⟨e, he, hs⟩ | ⟨he, hs⟩ := State.closeAnswered_cases s <;> rw [hs]
  · have hclosed : (s.replace x).closeAnswered = (s.replace x).closed e := by simp [State.closeAnswered, he]
    rw [hclosed, State.closed_eq, State.closed_eq, ← State.finish_replace]
    rfl
  · simp [State.closeAnswered, he]

/-! ### The computation after a response -/

/-- The replacement in the state a computation has reached. -/
def Progress.replace (x : Unread) : Progress → Progress
  | .goto l s => .goto l (s.replace x)
  | .finished s => .finished (s.replace x)

theorem Progress.settle_replace (x : Unread) (before : State) (p : Progress) :
    (p.replace x).settle (before.replace x) = (p.settle before).replace x := by
  cases p with
  | goto l s => rfl
  | finished s => exact State.terminate_replace x .done before s

/-- The computation commutes with a replacement that keeps ARG where the operation uses it. -/
def Commutes (op : BitVec 4) (next : State → Progress) : Prop :=
  ∀ (x : Unread) (u : State), (usesArg op = true → x.arg = u.lArg) → next (u.replace x) = (next u).replace x

theorem commutes_goto {op : BitVec 4} (l : Label) : Commutes op (.goto l) := fun _ _ _ => rfl

/-- HYST's next reading depends on SBOUND alone (R161). -/
theorem commutes_hystStart {op : BitVec 4} : Commutes op fun s => .goto s.hystStart s := fun _ _ _ => rfl

/-- THERMO's next iteration depends on SLEEP and PERC alone (R171). -/
theorem commutes_thermoStart {op : BitVec 4} : Commutes op fun s => .goto s.thermoStart s := fun _ _ _ => rfl

theorem commutes_finished {op : BitVec 4} : Commutes op .finished := fun _ _ _ => rfl

theorem commutes_waitOr {op : BitVec 4} (n : Nat) (l : Label) {skipped : State → Progress} (h : Commutes op skipped) :
    Commutes op (waitOr n l skipped) := by
  intro x u hu
  unfold waitOr
  split
  · exact h x u hu
  · rfl

theorem State.emitDecision_replace (x : Unread) (t : Word) (d : Decision) (perc : BitVec 7) (sleep : Bool) (s : State) :
    (s.replace x).emitDecision t d perc sleep = (s.emitDecision t d perc sleep).replace x := by
  unfold State.emitDecision
  rw [apply_ite (State.replace x)]
  rfl

theorem State.emitSetLog_replace (x : Unread) (p : BitVec 6) (v : Bool) (s : State) :
    (s.replace x).emitSetLog p v = (s.emitSetLog p v).replace x := by
  unfold State.emitSetLog
  rw [apply_ite (State.replace x)]
  rfl

theorem State.driven_replace (x : Unread) (p : BitVec 6) (v : Bool) (s : State) :
    (s.replace x).driven p v = (s.driven p v).replace x := by
  unfold State.driven
  rw [← State.emitSetLog_replace]
  rfl

/-- The thresholds come from ARG (R74). -/
theorem State.target_replace {x : Unread} {u : State} (h : x.arg = u.lArg) : (u.replace x).target = u.target :=
  congrArg BitVec.toInt h

theorem State.high_replace {x : Unread} {u : State} (h : x.arg = u.lArg) : (u.replace x).high = u.high := by
  rw [State.high, State.target_replace h]
  rfl

theorem State.low_replace {x : Unread} {u : State} (h : x.arg = u.lArg) : (u.replace x).low = u.low := by
  rw [State.low, State.target_replace h]
  rfl

theorem State.hystLevel_replace {x : Unread} {u : State} (h : x.arg = u.lArg) : (u.replace x).hystLevel = u.hystLevel := by
  unfold State.hystLevel
  rw [State.high_replace h]
  rfl

theorem hystDecide_replace (x : Unread) (d : Decision) (u : State) : hystDecide d (u.replace x) = (hystDecide d u).replace x :=
  congrArg (Progress.goto .hyWait) (State.emitDecision_replace x u.temp d 0 false u)

theorem commutes_hystAfterTread {op : BitVec 4} (t : Word) : Commutes op (hystAfterTread t) := by
  intro x u _
  unfold hystAfterTread
  rw [hystDecide_replace, apply_ite (Progress.replace x)]
  rfl

theorem commutes_hystAfterGet (g : Bool) : Commutes 2 (hystAfterGet g) := by
  intro x u hu
  have harg := hu rfl
  unfold hystAfterGet
  rw [State.high_replace harg, State.low_replace harg, hystDecide_replace, apply_ite (Progress.replace x),
    apply_ite (Progress.replace x)]
  rfl

theorem commutes_hystSet : Commutes 2 fun s => hystDecide (if s.hystLevel then .on else .off) s := by
  intro x u hu
  dsimp only
  rw [State.hystLevel_replace (hu rfl), hystDecide_replace]

theorem commutes_thermoElapsed {op : BitVec 4} (n : Nat) : Commutes op (thermoElapsed n) := by
  intro x u _
  unfold thermoElapsed
  rw [apply_ite (Progress.replace x)]
  rfl

theorem commutes_thermoAfterGet {op : BitVec 4} (g : Bool) : Commutes op (thermoAfterGet g) := by
  intro x u _
  unfold thermoAfterGet
  rw [apply_ite (Progress.replace x)]
  rfl

theorem ramp_replace {x : Unread} {u : State} (h : x.arg = u.lArg) (t : Word) :
    ramp t (u.replace x) = (ramp t u).map id (State.replace x) := by
  unfold ramp
  rw [State.target_replace h]
  dsimp only
  rw [apply_ite (Prod.map id (State.replace x)), apply_ite (Prod.map id (State.replace x))]
  rfl

theorem evaluate_replace {x : Unread} {u : State} (h : x.arg = u.lArg) (t : Word) :
    evaluate t (u.replace x) = (evaluate t u).map id (State.replace x) := by
  unfold evaluate
  rw [State.low_replace h, State.high_replace h, ramp_replace h, apply_ite (Prod.map id (State.replace x)),
    apply_ite (Prod.map id (State.replace x)), apply_ite (Prod.map id (State.replace x)),
    apply_ite (Prod.map id (State.replace x))]
  rfl

theorem commutes_thermoAfterTread (t : Word) : Commutes 3 (thermoAfterTread t) := by
  intro x u hu
  unfold thermoAfterTread
  rw [evaluate_replace (hu rfl)]
  obtain ⟨d, v⟩ := evaluate t u
  exact congrArg (Progress.goto _) (State.emitDecision_replace x t d v.perc v.sleep { v with usec := 0 })

/-! ### The plans -/

/-- The stage's computation commutes, whatever the response. -/
def Stage.Commutes (op : BitVec 4) : Stage → Prop
  | .openCtl next => Machine.Commutes op next
  | .cfgPin _ next => Machine.Commutes op next
  | .setPin _ _ next => Machine.Commutes op next
  | .getPin _ next => ∀ g, Machine.Commutes op (next g)
  | .bindSensor next => Machine.Commutes op next
  | .readTemp next => ∀ t, Machine.Commutes op (next t)
  | .wait _ next => Machine.Commutes op next

theorem pulseStage_commutes {op : BitVec 4} {d : Nat} {s : State} {ret : State → Progress} (h : Commutes op ret) {l : Label}
    {stage : Stage} (hstage : pulseStage d s ret l = some stage) : stage.Commutes op := by
  cases l <;> cases hstage
  case puSetH => exact commutes_waitOr _ _ (commutes_goto _)
  case puWaitH => exact commutes_goto _
  case puSetL => exact commutes_waitOr _ _ h
  case puWaitL => exact h

theorem fixedPlan_commutes {op : BitVec 4} {s : State} {l : Label} {stage : Stage} (hstage : fixedPlan s l = some stage) :
    stage.Commutes op := by
  unfold fixedPlan at hstage
  split at hstage
  · cases hstage; exact commutes_goto _
  · cases hstage; exact commutes_goto _
  · cases hstage; exact commutes_finished
  · exact pulseStage_commutes (commutes_goto _) hstage

theorem pulsePlan_commutes {op : BitVec 4} {s : State} {l : Label} {stage : Stage} (hstage : pulsePlan s l = some stage) :
    stage.Commutes op := by
  unfold pulsePlan at hstage
  split at hstage
  · cases hstage; exact commutes_goto _
  · cases hstage; exact commutes_goto _
  · exact pulseStage_commutes commutes_finished hstage

theorem hystPlan_commutes {s : State} {l : Label} {stage : Stage} (hstage : hystPlan s l = some stage) : stage.Commutes 2 := by
  cases l <;> cases hstage
  case pOpen => exact commutes_goto _
  case pCfg => exact commutes_hystStart
  case hyBind => exact commutes_goto _
  case hyTread => exact commutes_hystAfterTread
  case hyGet => exact commutes_hystAfterGet
  case hySet => exact commutes_hystSet
  case hyWait => exact commutes_hystStart

theorem thermoPlan_commutes {s : State} {l : Label} {stage : Stage} (hstage : thermoPlan s l = some stage) :
    stage.Commutes 3 := by
  unfold thermoPlan at hstage
  split at hstage
  · cases hstage; exact commutes_goto _
  · cases hstage; exact commutes_thermoStart
  · cases hstage; exact commutes_thermoAfterGet
  · cases hstage; exact commutes_goto _
  · cases hstage; exact commutes_thermoElapsed _
  · cases hstage; exact commutes_goto _
  · cases hstage; exact commutes_thermoAfterTread
  · exact pulseStage_commutes (commutes_thermoElapsed _) hstage

theorem rpinPlan_commutes {op : BitVec 4} {s : State} {l : Label} {stage : Stage} (hstage : rpinPlan s l = some stage) :
    stage.Commutes op := by
  cases l <;> cases hstage
  case pOpen => exact commutes_goto _
  case rpGet => exact fun _ => commutes_finished

theorem rtempPlan_commutes {op : BitVec 4} {s : State} {l : Label} {stage : Stage} (hstage : rtempPlan s l = some stage) :
    stage.Commutes op := by
  cases l <;> cases hstage
  case rtBind => exact commutes_goto _
  case rtTread => exact fun _ => commutes_finished

theorem planOf_commutes {op : BitVec 4} {s : State} {l : Label} {stage : Stage} (hstage : planOf op s l = some stage) :
    stage.Commutes op := by
  obtain rfl | rfl | rfl | rfl | rfl | rfl | ⟨hplan, -⟩ := op_cases op
  · exact fixedPlan_commutes hstage
  · exact hystPlan_commutes hstage
  · exact thermoPlan_commutes hstage
  · exact rpinPlan_commutes hstage
  · exact rtempPlan_commutes (s := s) hstage
  · exact pulsePlan_commutes hstage
  · rw [hplan] at hstage
    cases hstage

/-- The running command's plan reads only the latches it uses (R75): its actions and computations are the same. -/
theorem planOf_replace {x : Unread} {s : State} (h : x.Fits s) (l : Label) :
    planOf s.lOp (s.replace x) l = planOf s.lOp s l := by
  obtain ⟨cmdLat, pin, freq, arg, bus⟩ := x
  obtain ⟨hpin, hfreq, harg⟩ := h
  obtain hop | hop | hop | hop | hop | hop | ⟨hplan, -⟩ := op_cases s.lOp
  · obtain rfl := hpin (by rw [hop]; rfl)
    obtain rfl := hfreq (by rw [hop]; rfl)
    obtain rfl := harg (by rw [hop]; rfl)
    rw [hop]
    rfl
  · obtain rfl := hpin (by rw [hop]; rfl)
    obtain rfl := harg (by rw [hop]; rfl)
    rw [hop]
    rfl
  · obtain rfl := hpin (by rw [hop]; rfl)
    obtain rfl := hfreq (by rw [hop]; rfl)
    rw [hop]
    rfl
  · obtain rfl := hpin (by rw [hop]; rfl)
    rw [hop]
    rfl
  · rw [hop]
    rfl
  · obtain rfl := hpin (by rw [hop]; rfl)
    obtain rfl := hfreq (by rw [hop]; rfl)
    obtain rfl := harg (by rw [hop]; rfl)
    rw [hop]
    rfl
  · rw [hplan]
    rfl

/-! ### The answers -/

/-- An answered action: its effect, the computation after it, and the settled step. -/
theorem settle_next_replace {op : BitVec 4} {next : State → Progress} (h : Commutes op next) {x : Unread} {u : State}
    (hu : usesArg op = true → x.arg = u.lArg) (before : State) :
    (next (u.replace x)).settle (before.replace x) = ((next u).settle before).replace x := by
  rw [h x u hu, Progress.settle_replace]

theorem onGpio_replace {op : BitVec 4} {stage : Stage} (h : stage.Commutes op) {x : Unread} {s : State}
    (hs : usesArg op = true → x.arg = s.lArg) (ok level : Bool) :
    stage.onGpio ok level (s.replace x) = (stage.onGpio ok level s).replace x := by
  cases stage with
  | openCtl next =>
    cases ok
    · exact State.terminate_replace x _ s (s.land.record .openCtl .fail)
    · exact settle_next_replace h (u := s.opened) hs s
  | cfgPin p next =>
    cases ok
    · exact State.terminate_replace x _ s (s.configFailed p)
    · exact settle_next_replace h (u := s.configured p) hs s
  | setPin p v next =>
    cases ok
    · exact State.terminate_replace x _ s (s.driveFailed p v)
    · have harg : (s.driven p v).lArg = s.lArg := State.emitSetLog_lArg _ p v
      show (next ((s.replace x).driven p v)).settle (s.replace x) = _
      rw [State.driven_replace]
      exact settle_next_replace h (by rwa [harg]) s
  | getPin p next =>
    cases ok
    · exact State.terminate_replace x _ s (s.sampleFailed p)
    · exact settle_next_replace (h (s.readback p level)) (u := s.sampled p (s.readback p level)) hs s
  | bindSensor next | readTemp next | wait n next => rfl

theorem onSensor_replace {op : BitVec 4} {stage : Stage} (h : stage.Commutes op) {x : Unread} {s : State}
    (hs : usesArg op = true → x.arg = s.lArg) (ok : Bool) (t : Word) :
    stage.onSensor ok t (s.replace x) = (stage.onSensor ok t s).replace x := by
  cases stage with
  | bindSensor next =>
    cases ok
    · exact State.terminate_replace x _ s (s.land.record .bindSensor .fail)
    · exact settle_next_replace h (u := s.bound) hs s
  | readTemp next => exact settle_next_replace (h t) (u := s.temperature t) hs s
  | openCtl next | cfgPin p next | setPin p v next | getPin p next | wait n next => rfl

theorem waitTick_replace {op : BitVec 4} {next : State → Progress} (h : Commutes op next) {x : Unread} {s : State}
    (hs : usesArg op = true → x.arg = s.lArg) (n : Nat) :
    (s.replace x).waitTick n next = (s.waitTick n next).replace x := by
  unfold State.waitTick
  rw [apply_ite (State.replace x), apply_ite (State.replace x), ← settle_next_replace h (u := s.waited n) hs s]
  rfl

theorem launchAction_replace (x : Unread) (a : Action) (s : State) :
    (s.replace x).launchAction a = (s.launchAction a).replace x := by
  cases a <;> rfl

/-! ### The sequencer's side -/

/-- The replacement in an outcome. -/
def replaceOutcome (x : Unread) : Host.Outcome State Fault Refusal → Host.Outcome State Fault Refusal
  | .next t => .next (t.replace x)
  | .fault r => .fault r
  | .refused r => .refused r

theorem outcomesAgree_replaceOutcome {x : Unread} {o : Host.Outcome State Fault Refusal} (h : ∀ t, o = .next t → x.Fits t) :
    outcomesAgree o (replaceOutcome x o) := by
  cases o with
  | next t => exact State.agreesOnUsed_replace (h t rfl)
  | fault r => exact rfl
  | refused r => exact rfl

/-- What one input of the sequencer's side does to the running command, at both states. -/
theorem runCommand_replace {x : Unread} {s : State} (h : x.Fits s) :
    runCommand (planOf s.lOp) (s.replace x) = replaceOutcome x (runCommand (planOf s.lOp) s) := by
  have hcommutes (stage) (hs : planOf s.lOp s s.seq = some stage) : stage.Commutes s.lOp := planOf_commutes hs
  have harg : usesArg s.lOp = true → x.arg = s.popInput.lArg := h.2.2
  simp only [runCommand, State.popInput_replace, State.replace_inputs, State.replace_inFlight, State.replace_epoch,
    State.replace_seq, planOf_replace h]
  generalize planOf s.lOp s s.seq = stage? at hcommutes
  generalize s.inFlight = f
  cases s.inputs.head?.getD .sequencer with
  | sequencer =>
    cases f with
    | none => cases stage? with
      | none => rfl
      | some stage => exact congrArg _ (launchAction_replace x stage.action s.popInput)
    | some a => rfl
  | gpio epoch ok level =>
    cases f with
    | none => rfl
    | some a =>
      dsimp only
      split
      · rfl
      split
      · exact congrArg _ (State.closeAnswered_replace x s.popInput)
      cases stage? with
      | none => rfl
      | some stage => exact congrArg _ (onGpio_replace (hcommutes stage rfl) harg ok level)
  | sensor epoch ok t =>
    cases f with
    | none => rfl
    | some a =>
      dsimp only
      split
      · rfl
      cases stage? with
      | none => rfl
      | some stage => exact congrArg _ (onSensor_replace (hcommutes stage rfl) harg ok t)
  | tick =>
    cases f with
    | none => rfl
    | some a => cases a with
      | wait m => cases stage? with
        | none => rfl
        | some stage => cases stage with
          | wait n next => exact congrArg _ (waitTick_replace (hcommutes _ rfl) harg n)
          | _ => rfl
      | _ => rfl
  | host a => cases f <;> rfl
  | reset => cases f <;> rfl

/-- STOP's side of a step, at both states (R127). -/
theorem execStop_replace (x : Unread) {s : State} (hhost : ∀ a rest, s.inputs ≠ .host a :: rest) (pin freq : BitVec 6)
    (arg : BitVec 16) : execStop pin freq arg (s.replace x) = replaceOutcome x (execStop pin freq arg s) := by
  unfold execStop
  rw [State.popInput_replace, State.replace_inputs, State.replace_inFlight]
  split
  · next a rest hs => exact absurd hs (hhost a rest)
  · split
    · rw [apply_ite (replaceOutcome x), State.stopStep_replace]
      rfl
    · rw [apply_ite (replaceOutcome x), State.closeAnswered_replace]
      rfl
    · rfl

/-- STOP takes the sequencer's side of the step: at a boundary with STOPREQ = 1, while the STOP step is under way, or when the
latches hold STOP itself (log entry 14). -/
def State.stopMoves (s : State) : Bool := (s.stopReq && s.inFlight.isNone) || s.stopping || decide (s.lOp = 7)

/-- The sequencer's side of a step is STOP's, or the plan of L_OP (R120). -/
theorem exec_moving {s : State} (hhost : ∀ a rest, s.inputs ≠ .host a :: rest) :
    exec s.moving s = if s.stopMoves then execStop 0 0 0 s else runCommand (planOf s.lOp) s := by
  unfold State.moving State.stopMoves
  by_cases hstop : ((s.stopReq && s.inFlight.isNone) || s.stopping) = true
  · rw [if_pos hstop, hstop]
    rfl
  · rw [if_neg hstop, Bool.eq_false_iff.mpr hstop, Bool.false_or]
    by_cases hop : s.lOp = 7
    · have hcode : Laws.opcode (decodeWord s.latchedWord) = 7 := by rw [opcode_decodeWord, fieldOp_latchedWord, hop]
      rw [if_pos (decide_eq_true hop)]
      generalize decodeWord s.latchedWord = i at hcode
      cases i with
      | stop pin freq arg => rfl
      | _ => exact absurd hcode (by simp [Laws.opcode])
    · rw [if_neg (by simpa using hop), exec_latchedWord hhost hop]

theorem exec_moving_agrees {x : Unread} {s : State} (h : x.Fits s) (hhost : ∀ a rest, s.inputs ≠ .host a :: rest) :
    outcomesAgree (exec s.moving s) (exec (s.replace x).moving (s.replace x)) := by
  have hmoves : (s.replace x).stopMoves = s.stopMoves := rfl
  rw [exec_moving hhost, exec_moving (s := s.replace x) hhost, hmoves]
  split
  · rw [execStop_replace x hhost]
    exact outcomesAgree_replaceOutcome fun t ht => h.of_configuration (configuration_of_execStop ht)
  · show outcomesAgree _ (runCommand (planOf s.lOp) (s.replace x))
    rw [runCommand_replace h]
    exact outcomesAgree_replaceOutcome fun t ht => h.of_configuration (configuration_of_runCommand ht)

/-! ### The host's side -/

/-- The host's access overwrites the bus answer at both states. -/
theorem agreesOnUsed_of_bus {x : Unread} {s t : State} {b : BusResponse} (h : x.Fits s)
    (ht : t = State.replace { x with bus := b } s) : s.agreesOnUsed t :=
  State.agreesOnUsed_iff.mpr ⟨{ x with bus := b }, h, ht⟩

theorem hostRead_agrees {x : Unread} {s : State} (h : x.Fits s) (off : BitVec 5) (size : Nat) :
    (s.hostRead off size).agreesOnUsed ((s.replace x).hostRead off size) := by
  unfold State.hostRead
  split
  · exact agreesOnUsed_of_bus h rfl
  · exact agreesOnUsed_of_bus h rfl

theorem hostWrite_agrees {x : Unread} {s : State} (h : x.Fits s) (off : BitVec 5) (size : Nat) (w : Word) :
    (s.hostWrite off size w).agreesOnUsed ((s.replace x).hostWrite off size w) := by
  unfold State.hostWrite
  split
  · split
    · exact agreesOnUsed_of_bus h rfl
    · exact agreesOnUsed_of_bus h rfl
  · exact agreesOnUsed_of_bus h rfl

/-- One CMD word at both states: a request or a rejection touches what they agree on alone, and acceptance makes them one. -/
theorem cmdWrite_agrees {x : Unread} {s : State} (h : x.Fits s) (w : Word) :
    (s.cmdWrite w).agreesOnUsed ((s.replace x).cmdWrite w) := by
  unfold State.cmdWrite
  split
  · unfold State.requestStop
    rw [State.replace_state]
    split
    · exact agreesOnUsed_of_bus h rfl
    · exact agreesOnUsed_of_bus h rfl
  · unfold State.issue
    rw [State.replace_state]
    split
    · exact agreesOnUsed_of_bus h rfl
    · exact State.agreesOnUsed_refl _

theorem usesArg_of_readsDuty {op : BitVec 4} : readsDuty op = true → usesArg op = true := by
  revert op
  decide

/-- Validation reads the operation and the used fields alone (R125). -/
theorem validWord_congr {w w' : Word} (h : sameUsedFields w w') : validWord w = validWord w' := by
  obtain ⟨hop, hpin, hfreq, harg⟩ := h
  have whenUsed {n : Nat} {u : Bool} {a b : BitVec n} (legal : BitVec n → Bool) (hab : u = true → a = b) :
      (!u || legal a) = (!u || legal b) := by
    cases u with
    | false => rfl
    | true => rw [hab rfl]
  rw [validWord_eq, validWord_eq, ← hop, whenUsed pinLegal hpin, whenUsed freqLegal hfreq,
    whenUsed dutyLegal fun hd => harg (usesArg_of_readsDuty hd)]

/-- What acceptance of `w` and of `w'` leave differently. -/
def acceptedWord (w : Word) : Unread := ⟨w, fieldPin w, effFreq (fieldFreq w), fieldArg w, .written⟩

theorem accept_replace {w w' : Word} (h : fieldOp w = fieldOp w') (s : State) :
    s.accept w' = (s.accept w).replace (acceptedWord w') := by
  unfold State.accept
  rw [← h]
  rfl

theorem acceptedWord_fits {w w' : Word} (h : sameUsedFields w w') (s : State) : (acceptedWord w').Fits (s.accept w) := by
  obtain ⟨-, hpin, hfreq, harg⟩ := h
  exact ⟨fun hu => (hpin hu).symm, fun hu => congrArg effFreq (hfreq hu).symm, fun hu => (harg hu).symm⟩

/-- Two CMD words with the same operation and used fields (R80). -/
theorem cmdWrite_sameUsedFields {w w' : Word} (h : sameUsedFields w w') (s : State) :
    (s.cmdWrite w).agreesOnUsed (s.cmdWrite w') := by
  have hop : fieldOp w = fieldOp w' := h.1
  have hfits := acceptedWord_fits h s
  unfold State.cmdWrite State.issue
  rw [← validWord_congr h, ← hop, accept_replace hop]
  split
  · exact State.agreesOnUsed_refl _
  split
  · exact State.agreesOnUsed_refl _
  split
  · exact State.agreesOnUsed_iff.mpr ⟨_, hfits, rfl⟩
  · refine State.agreesOnUsed_iff.mpr ⟨_, hfits.of_configuration (State.configuration_raiseFault _ _ _), ?_⟩
    exact State.terminate_replace _ _ _ _

/-! ### Every step -/

theorem step_reset {s : State} {rest : List Input} (hin : s.inputs = .reset :: rest) : step s = .next s.popInput.resetNow := by
  unfold step; rw [hin]

/-- Any other input belongs to the sequencer's side, while BUSY (R120). -/
theorem step_other {s : State} (hreset : ∀ rest, s.inputs ≠ .reset :: rest) (hhost : ∀ a rest, s.inputs ≠ .host a :: rest) :
    step s = if s.state = .busy then exec s.moving s else .next s.popInput := by
  unfold step
  split
  · next rest h => exact absurd h (hreset rest)
  · next a rest h => exact absurd h (hhost a rest)
  · rfl

theorem step_agrees {x : Unread} {s : State} (h : x.Fits s) : outcomesAgree (step s) (step (s.replace x)) := by
  obtain ⟨rest, hin, hs⟩ | ⟨a, rest, w, hin, hw, -⟩ | ⟨off, size, rest, hin, hs⟩ | ⟨off, size, w, rest, hin, hw, hs⟩ |
    ⟨hreset, hhost, hb, hs⟩ | ⟨hreset, hhost, hb, hs⟩ := step_cases s
  · rw [hs, step_reset (s := s.replace x) hin]
    exact State.agreesOnUsed_refl _
  · rw [step_cmdWord hin hw, step_cmdWord (s := s.replace x) hin hw]
    exact cmdWrite_agrees (s := s.popInput) h w
  · rw [hs, step_read (s := s.replace x) hin]
    exact hostRead_agrees (s := s.popInput) h off size
  · rw [hs, step_write (s := s.replace x) hin hw]
    exact hostWrite_agrees (s := s.popInput) h off size w
  · rw [hs, step_other (s := s.replace x) hreset hhost, State.replace_state, if_pos hb]
    exact exec_moving_agrees h hhost
  · rw [hs, step_other (s := s.replace x) hreset hhost, State.replace_state, if_neg hb]
    exact State.agreesOnUsed_replace (s := s.popInput) h

/-- Settles O19: the CMD writes leave states a replacement apart, and every step commutes with the replacement. -/
theorem ignoredFieldsNeverMatter : Obligations.IgnoredFieldsNeverMatter := by
  refine ⟨fun s w w' rest hsame hin => ?_, fun s t hagrees => ?_⟩
  · rw [step_cmdWord hin rfl, step_cmdWord (rest := rest) rfl rfl]
    have hpop : State.popInput { s with inputs := .host (.write 0 4 w') :: rest } = s.popInput := by
      simp [State.popInput, hin]
    rw [hpop]
    exact cmdWrite_sameUsedFields hsame s.popInput
  · obtain ⟨x, hx, rfl⟩ := State.agreesOnUsed_iff.mp hagrees
    exact ⟨step_agrees hx, fun slot hslot => (State.readSlot_replace x s hslot).symm⟩

end Sys2Proof.Machine
end

section
/-! Answered actions, said once for `exec`: the stage at SEQ takes the answer, and what a successful answer hands to the computation
after it is an equation. The statements about single answers follow (O35, O37 to O39, O43, O46 to O49, O53, O59). -/

namespace Sys2Proof

/-- The command is STOP: it has no plan, and cancels another's (R126, R127). -/
def Instr.isStop : Instr → Bool
  | .stop _ _ _ => true
  | _ => false

end Sys2Proof

namespace Sys2Proof.Machine

/-! ### Which stage takes the answer -/

theorem State.popInput_eq {s : State} {x : Input} {rest : List Input} (hin : s.inputs = x :: rest) :
    s.popInput = { s with inputs := rest } := by
  simp [State.popInput, hin]

/-- Unless the host's access stands next, a command other than STOP runs its plan. -/
theorem exec_eq_runCommand {i : Instr} {s : State} (hi : i.isStop = false)
    (hhost : ∀ a rest, s.inputs ≠ .host a :: rest) : exec i s = runCommand (planOf (Laws.opcode i)) s := by
  obtain ⟨pin, freq, arg, hstop, -⟩ | ⟨valid, entry, hexec⟩ := exec_cases i
  · rw [hstop] at hi
    cases hi
  · rw [hexec]
    obtain ⟨a, rest, hin, -⟩ | ⟨-, hrun⟩ := command_cases i valid entry (planOf (Laws.opcode i)) s
    · exact absurd hin (hhost a rest)
    · exact hrun

/-- The last tick of a wait completes it, a STOP pending or not (R107, R213). -/
theorem State.waitTick_last {s : State} (hw : s.wrem = 1) (n : Nat) (next : State → Progress) :
    s.waitTick n next = (next { s with
      wrem := 0, ticks := s.ticks + 1, inFlight := none, actions := s.actions ++ [⟨.wait n, .completed⟩] }).settle s := by
  rw [State.waitTick, if_pos hw]
  simp [State.waited, State.countTick, State.land, State.record, hw]

section answers
variable {plan : State → Label → Option Stage} {s : State} {a : Action} {l : Label} {stage : Stage} {ok level : Bool}
  {t : Word} {m n : Nat} {next : State → Progress} {rest : List Input}

theorem runCommand_gpio (hf : s.inFlight = some a) (ha : a ≠ .closeCtl) (hin : s.inputs = .gpio s.epoch ok level :: rest)
    (hstage : plan s s.seq = some stage) : runCommand plan s = .next (stage.onGpio ok level { s with inputs := rest }) := by
  simp [runCommand, hin, hf, ha, hstage, State.popInput_eq hin]

theorem runCommand_sensor (hf : s.inFlight = some a) (ha : a ≠ .closeCtl) (hin : s.inputs = .sensor s.epoch ok t :: rest)
    (hstage : plan s s.seq = some stage) : runCommand plan s = .next (stage.onSensor ok t { s with inputs := rest }) := by
  simp [runCommand, hin, hf, ha, hstage, State.popInput_eq hin]

theorem runCommand_tick (hf : s.inFlight = some (.wait m)) (hin : s.inputs = .tick :: rest)
    (hstage : plan s s.seq = some (.wait n next)) :
    runCommand plan s = .next (State.waitTick n next { s with inputs := rest }) := by
  simp [runCommand, hin, hf, hstage, State.popInput_eq hin]

theorem runCommand_close (hf : s.inFlight = some .closeCtl) (hin : s.inputs = .gpio s.epoch ok level :: rest) :
    runCommand plan s = .next (State.closeAnswered { s with inputs := rest }) := by
  simp [runCommand, hin, hf, State.popInput_eq hin]

theorem execStop_close (pin freq : BitVec 6) (arg : BitVec 16) (hf : s.inFlight = some .closeCtl)
    (hin : s.inputs = .gpio s.epoch ok level :: rest) :
    execStop pin freq arg s = .next (State.closeAnswered { s with inputs := rest }) := by
  simp [execStop, hin, hf, State.popInput_eq hin]

variable {i : Instr} (hi : i.isStop = false)
include hi

theorem exec_gpio (hf : s.inFlight = some a) (ha : a ≠ .closeCtl) (hin : s.inputs = .gpio s.epoch ok level :: rest)
    (hseq : s.seq = l) (hstage : planOf (Laws.opcode i) s l = some stage) :
    exec i s = .next (stage.onGpio ok level { s with inputs := rest }) := by
  rw [exec_eq_runCommand hi (by simp [hin]), runCommand_gpio hf ha hin (hseq ▸ hstage)]

theorem exec_sensor (hf : s.inFlight = some a) (ha : a ≠ .closeCtl) (hin : s.inputs = .sensor s.epoch ok t :: rest)
    (hseq : s.seq = l) (hstage : planOf (Laws.opcode i) s l = some stage) :
    exec i s = .next (stage.onSensor ok t { s with inputs := rest }) := by
  rw [exec_eq_runCommand hi (by simp [hin]), runCommand_sensor hf ha hin (hseq ▸ hstage)]

theorem exec_lastTick (hf : s.inFlight = some (.wait m)) (hw : s.wrem = 1) (hin : s.inputs = .tick :: rest)
    (hseq : s.seq = l) (hstage : planOf (Laws.opcode i) s l = some (.wait n next)) :
    exec i s = .next ((next { s with
      wrem := 0, ticks := s.ticks + 1, inFlight := none, actions := s.actions ++ [⟨.wait n, .completed⟩]
      inputs := rest }).settle { s with inputs := rest }) := by
  rw [exec_eq_runCommand hi (by simp [hin]), runCommand_tick hf hin (hseq ▸ hstage), State.waitTick_last (by exact hw)]

end answers

/-! ### What an answer records -/

theorem State.emitDecision_eq_decisions (t : Word) (d : Decision) (perc : BitVec 7) (sleep : Bool) (s : State) :
    s.emitDecision t d perc sleep = { s with trace := s.trace ++ s.decisions t d perc sleep } := by
  unfold State.emitDecision State.decisions
  split
  · rfl
  · simp

theorem State.emitSetLog_eq_setLogs (p : BitVec 6) (v : Bool) (s : State) :
    s.emitSetLog p v = { s with trace := s.trace ++ s.setLogs p v } := by
  unfold State.emitSetLog State.setLogs
  split
  · rfl
  · simp

theorem State.driven_eq_setLogs (p : BitVec 6) (v : Bool) (s : State) : s.driven p v = { s with
    inFlight := none, line := v, lvalid := true, setDone := true, pins := pinPut p.toNat v s.pins
    trace := s.trace ++ s.setLogs p v, actions := s.actions ++ [⟨.setPin p v, .ok⟩] } :=
  State.emitSetLog_eq_setLogs p v _

theorem State.readback_eq (p : BitVec 6) (draw : Bool) (s : State) : s.readback p draw =
    if s.setDone = true ∧ s.foreignDrive = false then (pinLevel p.toNat s.pins).getD draw else draw := by
  simp [State.readback]

theorem pulseEntry_eq (d : Nat) : pulseEntry d = if d = 0 then .puSetL else .puSetH := by
  rcases Nat.eq_zero_or_pos d with rfl | h
  · rfl
  · rw [pulseEntry, if_pos h, if_neg h.ne']

/-- An iteration starts in the branch of R171. -/
theorem State.thermoStart_eq (s : State) : s.thermoStart = branchLabel s.sleep s.perc := by
  have hzero : s.perc.toNat = 0 ↔ s.perc = 0 := BitVec.toNat_inj (y := 0#7)
  unfold State.thermoStart branchLabel
  rw [pulseEntry_eq]
  simp only [hzero]
  cases s.sleep <;> simp

theorem State.filtered_iff (t : Word) (s : State) : s.filtered t = true ↔ s.lSfilt = true ∧ t = 0xFFFFFC19 := by
  rw [State.filtered, Bool.and_eq_true, decide_eq_true_iff, invalid]

/-! ### HYST's and THERMO's decisions, as the label they go on at and the record they make -/

theorem hystDecide_eq_decisions (d : Decision) (u : State) :
    hystDecide d u = .goto .hyWait { u with trace := u.trace ++ u.decisions u.temp d 0 false } :=
  congrArg _ (State.emitDecision_eq_decisions u.temp d 0 false u)

theorem hystAfterTread_eq (t : Word) (u : State) :
    hystAfterTread t u = .goto (if u.lSfilt = true ∧ t = 0xFFFFFC19 then .hyWait else .hyGet) { u with
      trace := u.trace ++ if u.lSfilt = true ∧ t = 0xFFFFFC19 then u.decisions u.temp .skip 0 false else [] } := by
  unfold hystAfterTread
  simp only [State.filtered_iff]
  split
  · exact hystDecide_eq_decisions .skip u
  · simp

/-- The level read back differs from the one the reading asks for (R163). -/
abbrev State.switches (g : Bool) (u : State) : Prop :=
  (1000 * u.lArg.toInt < u.temp.toInt ∧ g = false) ∨ (u.temp.toInt < 1000 * u.lArg.toInt - 5000 ∧ g = true)

theorem hystAfterGet_eq (g : Bool) (u : State) :
    hystAfterGet g u = .goto (if u.switches g then .hySet else .hyWait) { u with
      trace := u.trace ++ if u.switches g then [] else u.decisions u.temp .noChange 0 false } := by
  unfold hystAfterGet State.switches
  simp only [State.high, State.low, State.target, deadband]
  by_cases hhigh : 1000 * u.lArg.toInt < u.temp.toInt ∧ g = false
  · simp [hhigh]
  · by_cases hlow : u.temp.toInt < 1000 * u.lArg.toInt - 5000 ∧ g = true
    · simp [hlow]
    · simp only [hhigh, hlow, or_self, if_false]
      exact hystDecide_eq_decisions .noChange u

theorem thermoAfterGet_eq (g : Bool) (u : State) :
    thermoAfterGet g u = .goto (if g = !u.sleep then .thWait else .thSet) u := by
  unfold thermoAfterGet State.ensureLevel
  split <;> rfl

/-! ### The handle -/

/-- With an action in flight the command is BUSY (R43, R111). -/
theorem State.Inv.busy_of_inFlight {s : State} (h : s.Inv) {a : Action} (hf : s.inFlight = some a) : s.state = .busy :=
  (h.flight.1 (by simp [hf])).1

/-- The handle of a running command, by its label (R24). -/
theorem State.Inv.held_eq {s : State} (h : s.Inv) (hb : s.state = .busy) :
    s.held = decide (s.seq ∉ [Label.pOpen, .rtBind, .rtTread]) :=
  Bool.eq_iff_iff.mpr ((h.handle hb).trans decide_eq_true_iff.symm)

/-- A port action in flight other than `Close()` is the one SEQ names. -/
theorem State.Inv.awaiting {s : State} (h : s.Inv) {a : Action} (hf : s.inFlight = some a) (ha : a ≠ .closeCtl) :
    s.Awaiting :=
  ((State.inv_iff_of_busy (h.busy_of_inFlight hf)).mp h).2.2.awaiting_of_ne hf ha

/-! ### What a successful answer hands to the computation after it -/

theorem Progress.settle_goto (before : State) (l : Label) (u : State) : (Progress.goto l u).settle before = { u with seq := l } :=
  rfl

section stages
variable {next : State → Progress} {level : Bool} {s : State}

theorem onGpio_openCtl : (Stage.openCtl next).onGpio true level s = (next { s with
    held := true, inFlight := none, actions := s.actions ++ [⟨.openCtl, .ok⟩] }).settle s := rfl

theorem onGpio_cfgPin {p : BitVec 6} : (Stage.cfgPin p next).onGpio true level s = (next { s with
    inFlight := none, pins := pinForget p.toNat s.pins, actions := s.actions ++ [⟨.cfgPin p, .ok⟩] }).settle s := rfl

theorem onGpio_setPin {p : BitVec 6} {v : Bool} : (Stage.setPin p v next).onGpio true level s = (next { s with
    inFlight := none, line := v, lvalid := true, setDone := true, pins := pinPut p.toNat v s.pins
    trace := s.trace ++ s.setLogs p v, actions := s.actions ++ [⟨.setPin p v, .ok⟩] }).settle s :=
  congrArg (fun u => (next u).settle s) (s.driven_eq_setLogs p v)

theorem onGpio_getPin {p : BitVec 6} {next : Bool → State → Progress} :
    (Stage.getPin p next).onGpio true level s = (next (s.readback p level) { s with
      inFlight := none, line := s.readback p level, lvalid := true
      actions := s.actions ++ [⟨.getPin p, .level (s.readback p level)⟩] }).settle s := rfl

theorem onSensor_bindSensor {t : Word} : (Stage.bindSensor next).onSensor true t s = (next { s with
    sbound := true, inFlight := none, actions := s.actions ++ [⟨.bindSensor, .ok⟩] }).settle s := rfl

theorem onSensor_readTemp {ok : Bool} {t : Word} {next : Word → State → Progress} :
    (Stage.readTemp next).onSensor ok t s = (next t { s with
      temp := t, inFlight := none, actions := s.actions ++ [⟨.readTemp, .reading t⟩] }).settle s := rfl

end stages

/-- Completing a command that holds the handle issues its `Close()`; LINE and LVALID show as before until its answer (R128). -/
theorem Progress.settle_finished_of_held {before u : State} (h : u.held = true) : (Progress.finished u).settle before = { u with
    inFlight := some .closeCtl, ending := some ⟨.done, u.line, u.lvalid⟩, line := before.line, lvalid := before.lvalid } :=
  State.terminate_of_held h .done before

/-- Completing a command without the handle makes the last writes at once (R128). -/
theorem Progress.settle_finished_of_not_held {before u : State} (h : u.held = false) :
    (Progress.finished u).settle before = { u with state := .done, seq := .idle, stopReq := false } :=
  State.terminate_of_not_held h .done before

/-! ### The prologue, the sensor and the end -/

/-- Settles O35: the answer makes the terminating step's last writes, for each way to end. -/
theorem closeEndsTheCommand : Obligations.CloseEndsTheCommand := by
  rintro pin freq arg i s e ok l rest - hf he hin
  have hexec : exec i s = .next (State.closeAnswered { s with inputs := rest }) := by
    cases i with
    | stop pin freq arg => exact execStop_close pin freq arg hf hin
    | _ => exact (exec_eq_runCommand rfl (by simp [hin])).trans (runCommand_close hf hin)
  rw [hexec, State.closeAnswered]
  dsimp only
  rw [he]
  obtain ⟨kind, line, lvalid⟩ := e
  cases kind <;> rfl

/-- Settles O37, a command at a time. -/
theorem openAcquiresTheHandle : Obligations.OpenAcquiresTheHandle := by
  intro pin freq arg i s l rest hi hf hseq hin
  simp only [List.mem_cons, List.not_mem_nil, or_false] at hi
  obtain rfl | rfl | rfl | rfl | rfl := hi <;> rw [exec_gpio rfl hf nofun hin hseq rfl, onGpio_openCtl]
  · rfl
  · rfl
  · rfl
  · rfl
  · rw [if_pos rfl]
    rfl

/-- Settles O38: each command's first label of the body. -/
theorem cfgStartsTheBody : Obligations.CfgStartsTheBody := by
  intro pin freq arg i s l rest hi hf hseq hin
  simp only [List.mem_cons, List.not_mem_nil, or_false] at hi
  obtain rfl | rfl | rfl | rfl := hi <;> rw [exec_gpio rfl hf nofun hin hseq rfl, onGpio_cfgPin]
  · rfl
  · rfl
  · rw [State.thermoStart_eq]
    rfl
  · rw [pulseEntry_eq]
    rfl

/-- Settles O39, a command at a time. -/
theorem bindMarksTheSensor : Obligations.BindMarksTheSensor := by
  intro pin freq arg i l l' s t rest hi hf hseq hin
  simp only [List.mem_cons, List.not_mem_nil, or_false, Prod.mk.injEq] at hi
  obtain ⟨rfl, rfl, rfl⟩ | ⟨rfl, rfl, rfl⟩ | ⟨rfl, rfl, rfl⟩ := hi <;>
    rw [exec_sensor rfl hf nofun hin hseq rfl, onSensor_bindSensor] <;> rfl

/-! ### FIXED and the report commands -/

/-- Settles O43: the handle is held, so the completed command's `Close()` is issued. -/
theorem fixedBoundarySetCompletes : Obligations.FixedBoundarySetCompletes := by
  rintro pin freq arg s v l rest h rfl hf hseq hin
  have hheld : s.held = true := by rw [h.held_eq (h.busy_of_inFlight hf), hseq]; rfl
  rw [exec_gpio rfl hf nofun hin hseq rfl, onGpio_setPin, Progress.settle_finished_of_held (by exact hheld)]
  rfl

/-- Settles O59: RPIN holds the handle and has made no `Set`; RTEMP holds none. -/
theorem reportCommandsReport : Obligations.ReportCommandsReport := by
  intro pin freq arg s ok g t rest h
  refine ⟨fun hf hseq hin => ?_, fun hf hseq hin => ?_⟩
  · have hb := h.busy_of_inFlight hf
    have hheld : s.held = true := by rw [h.held_eq hb, hseq]; rfl
    have hset : s.setDone = false := (h.standsAt hb (h.awaiting hf nofun).ending).line.setDone_eq (by rw [hseq]; decide)
    have hread : State.readback s.lPin g { s with inputs := rest } = g := by simp [State.readback, hset]
    rw [exec_gpio rfl hf nofun hin hseq rfl, onGpio_getPin, hread, Progress.settle_finished_of_held (by exact hheld)]
  · have hheld : s.held = false := by rw [h.held_eq (h.busy_of_inFlight hf), hseq]; rfl
    rw [exec_sensor rfl hf nofun hin hseq rfl, onSensor_readTemp, Progress.settle_finished_of_not_held (by exact hheld)]

/-! ### HYST -/

/-- Settles O46: the filter decides. -/
theorem hystReadsOrSkips : Obligations.HystReadsOrSkips := by
  intro pin freq arg s ok t rest hf hseq hin
  rw [exec_sensor rfl hf nofun hin hseq rfl, onSensor_readTemp, hystAfterTread_eq]
  rfl

/-- Settles O47: the two thresholds, and the band between them. -/
theorem hystDecidesOnTheBand : Obligations.HystDecidesOnTheBand := by
  intro pin freq arg s l g rest hf hseq hin hg
  rw [← State.readback_eq] at hg
  subst hg
  rw [exec_gpio rfl hf nofun hin hseq rfl, onGpio_getPin, hystAfterGet_eq]
  rfl

/-- Settles O48: SETLOG comes with the `Set`, DECIDE with the computation after it. -/
theorem hystSwitchesTheLine : Obligations.HystSwitchesTheLine := by
  rintro pin freq arg s l v rest hf hseq hin rfl
  rw [exec_gpio rfl hf nofun hin hseq rfl, onGpio_setPin, hystDecide_eq_decisions]
  rfl

/-- Settles O49: the wait's last tick goes on where the tick begins. -/
theorem hystWaitStartsTheNextTick : Obligations.HystWaitStartsTheNextTick := by
  intro pin freq arg s n rest hf hseq hw hin
  rw [exec_lastTick rfl hf hw hin hseq rfl]
  rfl

/-! ### THERMO -/

/-- Settles O53: `ensure` compares the level got, and its `Set` drives the branch's level. -/
theorem ensureWritesOnlyIfTheLevelDiffers : Obligations.EnsureWritesOnlyIfTheLevelDiffers := by
  intro pin freq arg s l g rest hin hg
  rw [← State.readback_eq] at hg
  subst hg
  refine ⟨fun hf hseq => ?_, fun hf hseq => ?_⟩
  · rw [exec_gpio rfl hf nofun hin hseq rfl, onGpio_getPin, thermoAfterGet_eq]
    rfl
  · rw [exec_gpio rfl hf nofun hin hseq rfl, onGpio_setPin]
    rfl

end Sys2Proof.Machine
end

section
/-! Answered actions and ticks in the whole machine, from the invariant (O26, O27, O30, O31). A step runs the stage of SEQ;
the computation after the answer goes on at a label, or completes the command, and `completesAt` says at which labels. -/

namespace Sys2Proof.Machine

/-! ### Which stage the step runs -/

/-- With an action other than `Close()` in flight no STOP step is under way, so a step of the sequencer's side runs the plan of
L_OP (R120). -/
theorem State.Inv.step_eq_runCommand {s : State} (h : s.Inv) {a : Action} (hf : s.inFlight = some a) (ha : a ≠ .closeCtl)
    (hreset : ∀ rest, s.inputs ≠ .reset :: rest) (hhost : ∀ a rest, s.inputs ≠ .host a :: rest) :
    step s = runCommand (planOf s.lOp) s := by
  have hb := h.busy_of_inFlight hf
  have hmoves : s.stopMoves = false := by
    simpa [State.stopMoves, State.stopping, hf, (h.awaiting hf ha).ending] using lOp_ne_stop (h.label hb)
  rw [step_other hreset hhost, if_pos hb, exec_moving hhost, hmoves, if_neg Bool.false_ne_true]

/-- The action in flight is that of the stage at SEQ. -/
theorem State.Inv.exists_stage {s : State} (h : s.Inv) {a : Action} (hf : s.inFlight = some a) (ha : a ≠ .closeCtl) :
    ∃ stage, planOf s.lOp s s.seq = some stage ∧ stage.action = a := by
  obtain rfl : s.actionAt s.seq = a := Option.some.inj ((h.awaiting hf ha).inFlight.symm.trans hf)
  refine Option.map_eq_some_iff.mp ?_
  rw [planOf_action, if_pos (h.label (h.busy_of_inFlight hf))]

section answers
variable {s : State} {a : Action} {ok level : Bool} {n : Nat} {rest : List Input}

theorem State.Inv.step_gpio (h : s.Inv) (hf : s.inFlight = some a) (ha : a ≠ .closeCtl)
    (hin : s.inputs = .gpio s.epoch ok level :: rest) :
    ∃ stage, planOf s.lOp s s.seq = some stage ∧ stage.action = a ∧
      step s = .next (stage.onGpio ok level { s with inputs := rest }) := by
  obtain ⟨stage, hstage, haction⟩ := h.exists_stage hf ha
  exact ⟨stage, hstage, haction, (h.step_eq_runCommand hf ha (by simp [hin]) (by simp [hin])).trans
    (runCommand_gpio hf ha hin hstage)⟩

theorem Stage.eq_wait_of_action {stage : Stage} (h : stage.action = .wait n) : ∃ next, stage = .wait n next := by
  cases stage <;> cases h
  exact ⟨_, rfl⟩

theorem Stage.eq_setPin_of_action {stage : Stage} {p : BitVec 6} {v : Bool} (h : stage.action = .setPin p v) :
    ∃ next, stage = .setPin p v next := by
  cases stage <;> cases h
  exact ⟨_, rfl⟩

theorem Stage.eq_getPin_of_action {stage : Stage} {p : BitVec 6} (h : stage.action = .getPin p) :
    ∃ next, stage = .getPin p next := by
  cases stage <;> cases h
  exact ⟨_, rfl⟩

theorem State.Inv.step_tick (h : s.Inv) (hf : s.inFlight = some (.wait n)) (hin : s.inputs = .tick :: rest) :
    ∃ next, planOf s.lOp s s.seq = some (.wait n next) ∧ step s = .next (State.waitTick n next { s with inputs := rest }) := by
  obtain ⟨stage, hstage, haction⟩ := h.exists_stage hf nofun
  obtain ⟨next, rfl⟩ := Stage.eq_wait_of_action haction
  exact ⟨next, hstage, (h.step_eq_runCommand hf nofun (by simp [hin]) (by simp [hin])).trans (runCommand_tick hf hin hstage)⟩

end answers

/-- Settles O26: before its last tick a wait is aborted or counts. -/
theorem ticksCountDownOrAbort : Obligations.TicksCountDownOrAbort := by
  intro s n rest h hf hin hw
  obtain ⟨next, -, hstep⟩ := h.step_tick hf hin
  have hne : s.wrem ≠ 1 := fun h1 => by simp [h1] at hw
  have hpred : s.wrem - 1 = BitVec.ofNat 21 (s.wrem.toNat - 1) := by bv_omega
  rw [hstep, State.waitTick, if_neg hne]
  refine ⟨fun hstop => ?_, fun hstop => ?_⟩
  · rw [if_neg (by simp [hstop]), State.countTick, hpred]
  · rw [if_pos hstop]
    rfl

/-! ### Where a command completes -/

/-- The computation completes the command. -/
def Progress.isFinished : Progress → Prop
  | .goto _ _ => False
  | .finished _ => True

/-- The labels whose answered action completes the command of `op`: FIXED's one `Set`, the last action of a report command, and in
PULSE the low wait, or its `Set` when there is no low wait (R128, R142). -/
def completesAt (op : BitVec 4) (s : State) : Label → Prop
  | .fxSet | .rpGet | .rtTread => True
  | .puSetL => op = 6 ∧ tLow s.duty s.freqHz = 0
  | .puWaitL => op = 6
  | _ => False

/-- The computation completes the command exactly when `c` holds, wherever it starts. -/
def CompletesIff (c : Prop) (next : State → Progress) : Prop := ∀ u, (next u).isFinished ↔ c

/-- The computation after the stage's successful answer completes the command exactly when `c` holds. -/
def Stage.CompletesIff (c : Prop) : Stage → Prop
  | .openCtl next => Machine.CompletesIff c next
  | .cfgPin _ next => Machine.CompletesIff c next
  | .setPin _ _ next => Machine.CompletesIff c next
  | .getPin _ next => ∀ g, Machine.CompletesIff c (next g)
  | .bindSensor next => Machine.CompletesIff c next
  | .readTemp next => ∀ t, Machine.CompletesIff c (next t)
  | .wait _ next => Machine.CompletesIff c next

theorem completesIff_goto {c : Prop} (hc : ¬ c) (l : State → Label) : CompletesIff c fun s => .goto (l s) s :=
  fun _ => iff_of_false id hc

theorem completesIff_finished {c : Prop} (hc : c) : CompletesIff c .finished := fun _ => iff_of_true trivial hc

theorem completesIff_waitOr {c : Prop} {skipped : State → Progress} (h : CompletesIff c skipped) (n : Nat) (l : Label) :
    CompletesIff (c ∧ n = 0) (waitOr n l skipped) := by
  intro u
  unfold waitOr
  split
  · next h0 => exact (h u).trans (and_iff_left h0).symm
  · next h0 => exact iff_of_false id fun hc => h0 hc.2

theorem completesIff_hystAfterTread (t : Word) : CompletesIff False (hystAfterTread t) := by
  intro u
  rw [hystAfterTread_eq]
  exact .rfl

theorem completesIff_hystAfterGet (g : Bool) : CompletesIff False (hystAfterGet g) := by
  intro u
  rw [hystAfterGet_eq]
  exact .rfl

theorem completesIff_thermoElapsed (n : Nat) : CompletesIff False (thermoElapsed n) := by
  intro u
  obtain ⟨usec, -, ⟨-, h⟩ | ⟨-, h⟩⟩ := thermoElapsed_cases n u <;> rw [h] <;> exact .rfl

theorem completesIff_thermoAfterGet (g : Bool) : CompletesIff False (thermoAfterGet g) := by
  intro u
  rw [thermoAfterGet_eq]
  exact .rfl

/-- A pulse completes the command where its return does, in PULSE alone. -/
theorem pulseStage_completesIff {op : BitVec 4} {d : Nat} {s : State} {ret : State → Progress}
    (hret : CompletesIff (op = 6) ret) (hd : op = 6 → d = s.duty) {l : Label} {stage : Stage}
    (hstage : pulseStage d s ret l = some stage) : stage.CompletesIff (completesAt op s l) := by
  cases l <;> cases hstage
  case puSetH => exact fun u => (completesIff_waitOr (completesIff_goto id _) _ _ u).trans (and_iff_left_of_imp False.elim)
  case puWaitH => exact completesIff_goto id _
  case puSetL =>
    have hlow : op = 6 ∧ tLow d s.freqHz = 0 ↔ op = 6 ∧ tLow s.duty s.freqHz = 0 :=
      and_congr_right fun hop => by rw [hd hop]
    exact fun u => (completesIff_waitOr hret _ _ u).trans hlow
  case puWaitL => exact hret

theorem fixedPlan_completesIff {s : State} {l : Label} {stage : Stage} (hstage : fixedPlan s l = some stage) :
    stage.CompletesIff (completesAt 1 s l) := by
  unfold fixedPlan at hstage
  split at hstage
  · cases hstage; exact completesIff_goto id _
  · cases hstage; exact completesIff_goto id _
  · cases hstage; exact completesIff_finished trivial
  · exact pulseStage_completesIff (completesIff_goto (by decide) _) (by simp) hstage

theorem hystPlan_completesIff {s : State} {l : Label} {stage : Stage} (hstage : hystPlan s l = some stage) :
    stage.CompletesIff (completesAt 2 s l) := by
  cases l <;> cases hstage
  case hyTread => exact completesIff_hystAfterTread
  case hyGet => exact completesIff_hystAfterGet
  case hySet => exact fun _ => .rfl
  all_goals exact completesIff_goto id _

theorem thermoPlan_completesIff {s : State} {l : Label} {stage : Stage} (hstage : thermoPlan s l = some stage) :
    stage.CompletesIff (completesAt 3 s l) := by
  have helapsed (n : Nat) : CompletesIff ((3 : BitVec 4) = 6) (thermoElapsed n) := by
    simpa using completesIff_thermoElapsed n
  unfold thermoPlan at hstage
  split at hstage
  · cases hstage; exact completesIff_goto id _
  · cases hstage; exact completesIff_goto id _
  · cases hstage; exact completesIff_thermoAfterGet
  · cases hstage; exact completesIff_goto id _
  · cases hstage; exact completesIff_thermoElapsed window
  · cases hstage; exact completesIff_goto id _
  · cases hstage; exact fun _ _ => .rfl
  · exact pulseStage_completesIff (helapsed _) (by simp) hstage

theorem rpinPlan_completesIff {s : State} {l : Label} {stage : Stage} (hstage : rpinPlan s l = some stage) :
    stage.CompletesIff (completesAt 4 s l) := by
  cases l <;> cases hstage
  case pOpen => exact completesIff_goto id _
  case rpGet => exact fun _ => completesIff_finished trivial

theorem rtempPlan_completesIff {s : State} {l : Label} {stage : Stage} (hstage : rtempPlan s l = some stage) :
    stage.CompletesIff (completesAt 5 s l) := by
  cases l <;> cases hstage
  case rtBind => exact completesIff_goto id _
  case rtTread => exact fun _ => completesIff_finished trivial

theorem pulsePlan_completesIff {s : State} {l : Label} {stage : Stage} (hstage : pulsePlan s l = some stage) :
    stage.CompletesIff (completesAt 6 s l) := by
  unfold pulsePlan at hstage
  split at hstage
  · cases hstage; exact completesIff_goto id _
  · cases hstage; exact completesIff_goto id _
  · exact pulseStage_completesIff (completesIff_finished rfl) (fun _ => rfl) hstage

theorem planOf_completesIff {op : BitVec 4} {s : State} {l : Label} {stage : Stage} (hstage : planOf op s l = some stage) :
    stage.CompletesIff (completesAt op s l) := by
  obtain rfl | rfl | rfl | rfl | rfl | rfl | ⟨hplan, -⟩ := op_cases op
  · exact fixedPlan_completesIff hstage
  · exact hystPlan_completesIff hstage
  · exact thermoPlan_completesIff hstage
  · exact rpinPlan_completesIff hstage
  · exact rtempPlan_completesIff hstage
  · exact pulsePlan_completesIff hstage
  · rw [hplan] at hstage
    cases hstage

/-! ### How an answered action leaves the command -/

/-- A step that settles: its computation goes on at a label, or, where it completes a command that holds the handle, issues the
`Close()`; USEC and the trace are all it changes otherwise, and the trace only grows. -/
theorem step_settle_cases {s before u : State} {c : Prop} {next : State → Progress}
    (hstep : step s = .next ((next u).settle before)) (hframed : FramedNext next) (hextending : ExtendingNext next)
    (hcompletes : CompletesIff c next) (hheld : c → u.held = true) :
    ∃ usec trace, u.trace <+: trace ∧
      ((¬ c ∧ ∃ l, step s = .next { u with usec, trace, seq := l }) ∨
        (c ∧ step s = .next { u with
          usec, trace, inFlight := some .closeCtl, ending := some ⟨.done, u.line, u.lvalid⟩
          line := before.line, lvalid := before.lvalid })) := by
  obtain ⟨usec, trace, hreached⟩ := hframed u
  have htrace : u.trace <+: (next u).reached.trace := by
    obtain ⟨-, new, hnew, -⟩ := hextending u
    exact ⟨new, hnew.symm⟩
  have hc := hcompletes u
  rw [hreached] at htrace
  refine ⟨usec, trace, htrace, ?_⟩
  rw [hstep]
  generalize next u = p at hreached hc
  cases p with
  | goto l v =>
    obtain rfl : v = _ := hreached
    exact .inl ⟨fun hn => hc.mpr hn, l, rfl⟩
  | finished v =>
    obtain rfl : v = _ := hreached
    have hdone : c := hc.mp trivial
    exact .inr ⟨hdone, congrArg _ (Progress.settle_finished_of_held (by exact hheld hdone))⟩

/-- A command that completes where it holds the handle: every label of `completesAt` but RTEMP's reading. -/
theorem State.Inv.held_of_completesAt {s : State} (h : s.Inv) (hb : s.state = .busy) (ha : s.actionAt s.seq ≠ .readTemp)
    (hc : completesAt s.lOp s s.seq) : s.held = true := by
  rw [h.held_eq hb]
  generalize s.seq = l at ha hc
  cases l <;> simp_all [completesAt, State.actionAt]

/-! ### Ticks, `Set` and `Get` -/

theorem completesAt_of_wait {op : BitVec 4} {s : State} {l : Label} {n : Nat} (ha : s.actionAt l = .wait n) :
    completesAt op s l ↔ op = 6 ∧ l = .puWaitL := by
  cases l <;> cases ha <;> simp [completesAt]

theorem completesAt_of_setPin {op : BitVec 4} {s : State} {l : Label} {p : BitVec 6} {v : Bool}
    (ha : s.actionAt l = .setPin p v) (hc : completesAt op s l) :
    l = .fxSet ∨ (op = 6 ∧ tLow s.duty s.freqHz = 0 ∧ l = .puSetL) := by
  cases l <;> cases ha <;> simp_all [completesAt]

theorem completesAt_of_getPin {op : BitVec 4} {s : State} {l : Label} {p : BitVec 6} (ha : s.actionAt l = .getPin p)
    (hc : completesAt op s l) : l = .rpGet := by
  cases l <;> cases ha <;> simp_all [completesAt]

/-- A legal pulse has no low wait exactly when its duty is 100 (R141). -/
theorem tLow_eq_zero {d f : Nat} (hd : d ≤ 100) (hf : 1 ≤ f) (hf' : f ≤ 50) (h : tLow d f = 0) : d = 100 := by
  have hq : usPerPercent f ≠ 0 := (Nat.div_pos (hf'.trans (by decide)) hf).ne'
  have hrest : 100 - d = 0 := (Nat.mul_eq_zero.mp h).resolve_right hq
  omega

/-- The pin of a label's action is L_PIN (R59). -/
theorem pin_of_actionAt {s : State} {l : Label} {p : BitVec 6} (h : (s.actionAt l).pin? = some p) : p = s.lPin := by
  cases l <;> cases h <;> rfl

/-- Settles O27: the wait's computation goes on, but for PULSE's low wait, which completes the command. -/
theorem lastTickCompletesTheWait : Obligations.LastTickCompletesTheWait := by
  intro s n rest h hf hin hw
  have hb := h.busy_of_inFlight hf
  obtain ⟨next, hstage, hstep⟩ := h.step_tick hf hin
  have haction : s.actionAt s.seq = .wait n := (action_of_planOf hstage).symm
  have hlow := completesAt_of_wait (op := s.lOp) haction
  have hheld : completesAt s.lOp s s.seq → s.held = true := h.held_of_completesAt hb (by simp [haction])
  rw [State.waitTick_last (by exact BitVec.eq_of_toNat_eq hw)] at hstep
  obtain ⟨usec, trace, -, ⟨hc, l, hs⟩ | ⟨hc, hs⟩⟩ := step_settle_cases hstep (planOf_framed hstage)
    (planExtending_planOf _ _ _ _ hstage) (planOf_completesIff hstage) hheld
  · exact ⟨_, hs, rfl, (if_neg fun hl => hc (hlow.mpr hl)).symm, rfl, rfl, hb, rfl, rfl⟩
  · exact ⟨_, hs, rfl, (if_pos (hlow.mp hc)).symm, rfl, rfl, hb, rfl, rfl⟩

/-- Settles O30: the line is driven and SETLOG recorded before the computation after the `Set`. -/
theorem successfulSetDrivesTheLine : Obligations.SuccessfulSetDrivesTheLine := by
  intro s p v l rest h hf hin
  have hb := h.busy_of_inFlight hf
  have hending := (h.awaiting hf nofun).ending
  obtain ⟨stage, hstage, hset, hstep⟩ := h.step_gpio hf nofun hin
  obtain ⟨next, rfl⟩ := Stage.eq_setPin_of_action hset
  have haction : s.actionAt s.seq = .setPin p v := (action_of_planOf hstage).symm
  have hheld : completesAt s.lOp s s.seq → s.held = true := h.held_of_completesAt hb (by simp [haction])
  have hlast (hc : completesAt s.lOp s s.seq) : s.seq = .fxSet ∨ (s.lOp = 6 ∧ s.lArg.toNat = 100 ∧ s.seq = .puSetL) := by
    refine (completesAt_of_setPin haction hc).imp_right fun ⟨hop, hlow, hseq⟩ => ⟨hop, ?_, hseq⟩
    obtain ⟨-, hfreq, hduty⟩ := h.operands hb
    obtain ⟨hf1, hf50⟩ := hfreq (.inr (.inr hop))
    exact tLow_eq_zero (hduty (.inr hop)) hf1 hf50 hlow
  have hlevel := pinLevel_pinPut p.toNat v s.pins
  have hothers := fun r (hr : r ≠ p.toNat) => pinLevel_pinPut_of_ne hr v s.pins
  rw [onGpio_setPin] at hstep
  obtain ⟨usec, trace, htrace, ⟨-, l', hs⟩ | ⟨hc, hs⟩⟩ := step_settle_cases hstep (planOf_framed hstage)
    (planExtending_planOf _ _ _ _ hstage) (planOf_completesIff hstage) hheld
  · exact ⟨_, hs, rfl, hlevel, hothers, htrace, rfl, .inl ⟨rfl, hending, rfl, rfl⟩⟩
  · exact ⟨_, hs, rfl, hlevel, hothers, htrace, rfl, .inr ⟨hlast hc, rfl, rfl, rfl, rfl⟩⟩

/-- Settles O31: after a `Set` of this command the line is known, and its level is read back unless something else drives it. -/
theorem getReadsBackTheLatestSet : Obligations.GetReadsBackTheLatestSet := by
  intro s p l rest h hf hin
  have hb := h.busy_of_inFlight hf
  have hending := (h.awaiting hf nofun).ending
  obtain ⟨stage, hstage, hget, hstep⟩ := h.step_gpio hf nofun hin
  obtain ⟨next, rfl⟩ := Stage.eq_getPin_of_action hget
  have haction : s.actionAt s.seq = .getPin p := (action_of_planOf hstage).symm
  obtain rfl : p = s.lPin := pin_of_actionAt (congrArg Action.pin? haction)
  have hheld : completesAt s.lOp s s.seq → s.held = true := h.held_of_completesAt hb (by simp [haction])
  have hknown (hset : s.setDone = true) (hown : s.foreignDrive = false) :
      pinLevel s.lPin.toNat s.pins = some (s.readback s.lPin l) := by
    obtain ⟨v, hv⟩ := Option.isSome_iff_exists.mp ((h.standsAt hb hending).line hset).1
    simp [State.readback, hset, hown, hv]
  have hdraw (hfree : s.setDone = false ∨ s.foreignDrive = true) : s.readback s.lPin l = l := by
    rw [State.readback_eq, if_neg]
    rintro ⟨hset, hown⟩
    simp [hset, hown] at hfree
  rw [onGpio_getPin] at hstep
  obtain ⟨usec, trace, -, ⟨-, l', hs⟩ | ⟨hc, hs⟩⟩ := step_settle_cases hstep (planOf_framed hstage _)
    (planExtending_planOf _ _ _ _ hstage _) (planOf_completesIff hstage _) hheld
  · exact ⟨_, _, hs, rfl, rfl, hknown, hdraw, .inl ⟨rfl, hending, rfl, rfl⟩⟩
  · exact ⟨_, _, hs, rfl, rfl, hknown, hdraw, .inr ⟨completesAt_of_getPin haction hc, rfl, rfl, rfl, rfl⟩⟩

end Sys2Proof.Machine
end

section
/-! No pin but L_PIN (O32): a step other than reset performs the action in flight, at most, and the pin space shows that action's
effect, at most (`State.Performs`). -/

namespace Sys2Proof.Machine

/-- What an action can leave of the pin space: `Cfg` forgets its line, `Set` drives or forgets it, any other keeps all. -/
inductive PinEffect (pins : Pins) : Action → Pins → Prop
  | keep (a) : PinEffect pins a pins
  | configured (p) : PinEffect pins (.cfgPin p) (pinForget p.toNat pins)
  | driven (p v) : PinEffect pins (.setPin p v) (pinPut p.toNat v pins)
  | driveFailed (p v) : PinEffect pins (.setPin p v) (pinForget p.toNat pins)

/-- An action on no pin but `q` leaves the other lines as they were. -/
theorem PinEffect.pinLevel_of_ne {pins pins' : Pins} {a : Action} (h : PinEffect pins a pins') (hw : pinsWf pins = true)
    {q : BitVec 6} (hq : ∀ p, a.pin? = some p → p = q) {r : Nat} (hr : r ≠ q.toNat) :
    pinLevel r pins' = pinLevel r pins := by
  cases h with
  | keep => rfl
  | configured p =>
    obtain rfl := hq p rfl
    exact pinLevel_pinForget_of_ne hr pins hw
  | driven p v =>
    obtain rfl := hq p rfl
    exact pinLevel_pinPut_of_ne hr v pins
  | driveFailed p v =>
    obtain rfl := hq p rfl
    exact pinLevel_pinForget_of_ne hr pins hw

/-- Only a `Cfg` or `Set` changes what is known of a line. -/
theorem PinEffect.eq_or {pins pins' : Pins} {a : Action} (h : PinEffect pins a pins') :
    pins' = pins ∨ (∃ p, a = .cfgPin p) ∨ ∃ p v, a = .setPin p v := by
  cases h with
  | keep => exact .inl rfl
  | configured p => exact .inr (.inl ⟨p, rfl⟩)
  | driven p v | driveFailed p v => exact .inr (.inr ⟨p, v, rfl⟩)

/-- All that `t` has observed since `s` is the action `a`, and the pin space shows its effect at most. -/
structure State.Performs (s : State) (a : Action) (t : State) : Prop where
  actions : ∃ new, t.actions = s.actions ++ new ∧ ∀ e ∈ new, e.action = a
  pins : PinEffect s.pins a t.pins

theorem State.Performs.of_append {s t : State} {a : Action} {r : Response} (hactions : t.actions = s.actions ++ [⟨a, r⟩])
    (hpins : PinEffect s.pins a t.pins) : s.Performs a t :=
  ⟨⟨_, hactions, by simp⟩, hpins⟩

theorem State.Performs.of_eq {s t : State} {a : Action} (hactions : t.actions = s.actions) (hpins : t.pins = s.pins) :
    s.Performs a t :=
  ⟨⟨[], hactions.trans (List.append_nil _).symm, by simp⟩, by rw [hpins]; exact .keep a⟩

/-- A terminating step performs nothing before its `Close()` is answered. -/
theorem State.performs_terminate {s : State} {a : Action} (k : EndKind) (before u : State) (h : s.Performs a u) :
    s.Performs a (State.terminate k before u) :=
  ⟨by rw [State.terminate_actions]; exact h.actions, by rw [State.terminate_pins]; exact h.pins⟩

theorem Progress.performs_settle {s : State} {a : Action} (before : State) (p : Progress) (h : s.Performs a p.reached) :
    s.Performs a (p.settle before) := by
  cases p with
  | goto l u => exact ⟨h.actions, h.pins⟩
  | finished u => exact State.performs_terminate .done before u h

/-- An answered action whose effect leads to `u`, and the computation after it. -/
theorem FramedNext.performs {next : State → Progress} (hnext : FramedNext next) {s : State} {a : Action} (before u : State)
    (h : s.Performs a u) : s.Performs a ((next u).settle before) := by
  obtain ⟨usec, trace, hs⟩ := hnext u
  exact Progress.performs_settle before _ (by rw [hs]; exact ⟨h.actions, h.pins⟩)

theorem performs_onGpio {evaluates : Prop} {stage : Stage} (h : stage.Framed evaluates) (ok level : Bool) (s : State) :
    s.Performs stage.action (stage.onGpio ok level s) := by
  obtain ⟨next, rfl, -, hs⟩ | ⟨next, rfl, -, hs⟩ | ⟨p, next, rfl, -, hs⟩ | ⟨p, next, rfl, -, hs⟩ |
    ⟨p, v, next, rfl, -, hs⟩ | ⟨p, v, next, rfl, -, hs⟩ | ⟨p, next, rfl, -, hs⟩ | ⟨p, next, rfl, -, hs⟩ | ⟨hs, -⟩ :=
    onGpio_cases ok level s stage <;> rw [hs]
  · exact FramedNext.performs h s s.opened (.of_append rfl (.keep _))
  · exact State.performs_terminate _ s (s.land.record .openCtl .fail) (.of_append rfl (.keep _))
  · exact FramedNext.performs h s (s.configured p) (.of_append rfl (.configured p))
  · exact State.performs_terminate _ s (s.configFailed p) (.of_append rfl (.configured p))
  · rw [State.driven_eq_setLogs]
    exact FramedNext.performs h s _ (.of_append rfl (.driven p v))
  · exact State.performs_terminate _ s (s.driveFailed p v) (.of_append rfl (.driveFailed p v))
  · exact (h _).performs s (s.sampled p (s.readback p level)) (.of_append rfl (.keep _))
  · exact State.performs_terminate _ s (s.sampleFailed p) (.of_append rfl (.keep _))
  · exact .of_eq rfl rfl

theorem performs_onSensor {evaluates : Prop} {stage : Stage} (h : stage.Framed evaluates) (ok : Bool) (t : Word) (s : State) :
    s.Performs stage.action (stage.onSensor ok t s) := by
  obtain ⟨next, rfl, -, hs⟩ | ⟨next, rfl, -, hs⟩ | ⟨next, rfl, hs⟩ | ⟨hs, -⟩ := onSensor_cases ok t s stage <;> rw [hs]
  · exact FramedNext.performs h s s.bound (.of_append rfl (.keep _))
  · exact State.performs_terminate _ s (s.land.record .bindSensor .fail) (.of_append rfl (.keep _))
  · obtain ⟨usec, trace, perc, sleep, hr, -⟩ := h t (s.temperature t)
    refine Progress.performs_settle s _ ?_
    rw [hr]
    exact .of_append rfl (.keep _)
  · exact .of_eq rfl rfl

theorem performs_waitTick {next : State → Progress} (h : FramedNext next) (n : Nat) (s : State) :
    s.Performs (.wait n) (s.waitTick n next) := by
  obtain ⟨-, hs⟩ | ⟨-, -, hs⟩ | ⟨-, -, hs⟩ := waitTick_cases n next s <;> rw [hs]
  · exact h.performs s (s.waited n) (.of_append rfl (.keep _))
  · exact .of_append rfl (.keep _)
  · exact .of_eq rfl rfl

/-- A step other than reset performs the action in flight, if any, and nothing else (R111). -/
theorem State.Moves.performs {s t : State} {x : Option Input} (h : s.Moves x t) (hx : x ≠ some .reset) :
    (t.actions = s.actions ∧ t.pins = s.pins) ∨ ∃ a, s.inFlight = some a ∧ s.Performs a t := by
  cases h with
  | reset => exact absurd rfl hx
  | stray | window | start => exact .inl ⟨rfl, rfl⟩
  | refuse a w => exact .inl ⟨State.terminate_actions _ _ _, State.terminate_pins _ _ _⟩
  | launch => exact .inl (by cases s.actionAt s.seq <;> exact ⟨rfl, rfl⟩)
  | stop => exact .inl ⟨State.terminate_actions _ _ _, State.terminate_pins _ _ _⟩
  | close ok level e _ he =>
    have hpins : (s.closed e).pins = s.pins := by simp [State.closed_eq]
    exact .inr ⟨.closeCtl, he.inFlight, .of_append (r := .ok) (by simp [State.closed_eq]) (by rw [hpins]; exact .keep _)⟩
  | gpio ok level stage _ ha hstage =>
    exact .inr ⟨_, ha.inFlight, action_of_planOf hstage ▸ performs_onGpio (planOf_framed hstage) ok level s⟩
  | sensor ok r stage _ ha hstage =>
    exact .inr ⟨_, ha.inFlight, action_of_planOf hstage ▸ performs_onSensor (planOf_framed hstage) ok r s⟩
  | tick n next _ ha hstage =>
    exact .inr ⟨_, ha.inFlight, action_of_planOf hstage ▸ performs_waitTick (planOf_framed hstage) n s⟩

/-- The action in flight is on L_PIN or on no pin (R110). -/
theorem State.Inv.pin_of_inFlight {s : State} (h : s.Inv) {a : Action} (hf : s.inFlight = some a) {p : BitVec 6}
    (hp : a.pin? = some p) : p = s.lPin := by
  have ha : a ≠ .closeCtl := by
    rintro rfl
    cases hp
  obtain rfl : s.actionAt s.seq = a := Option.some.inj ((h.awaiting hf ha).inFlight.symm.trans hf)
  exact pin_of_actionAt hp

/-- Reset observes the end of the action in flight alone (R240). -/
theorem State.action_of_mem_cutShort {s : State} {e : PortEvent} (h : e ∈ s.cutShort) : s.inFlight = some e.action := by
  unfold State.cutShort at h
  split at h
  · cases h
  · next n hf =>
    obtain rfl := List.mem_singleton.mp h
    exact hf
  · next a _ hf =>
    obtain rfl := List.mem_singleton.mp h
    exact hf

/-- Settles O32: a step performs the action in flight alone, and that is on L_PIN or on no pin. -/
theorem onlyTheConfiguredPinIsReached : Obligations.OnlyTheConfiguredPinIsReached := by
  intro s t h hstep
  have hpin {a : Action} (hf : s.inFlight = some a) : ∀ p, a.pin? = some p → p = s.lPin := fun _ => h.pin_of_inFlight hf
  by_cases hreset : s.inputs.head? = some .reset
  · refine ⟨?_, fun hnot => absurd hreset hnot⟩
    obtain ⟨rest, hin⟩ := List.head?_eq_some_iff.mp hreset
    obtain rfl : s.popInput.resetNow = t := by simpa [step_reset hin] using hstep
    exact ⟨s.cutShort, rfl, fun e he => hpin (State.action_of_mem_cutShort he)⟩
  · obtain ⟨hactions, hpins⟩ | ⟨a, hf, hperf⟩ := (step_moves h hstep).performs hreset
    · refine ⟨⟨[], hactions.trans (List.append_nil _).symm, by simp⟩, fun _ => ⟨.inl hpins, fun r _ => ?_⟩⟩
      exact congrArg (pinLevel r) hpins
    · refine ⟨?_, fun _ => ⟨?_, fun r hr => hperf.pins.pinLevel_of_ne h.registers.pins (hpin hf) hr⟩⟩
      · obtain ⟨new, hnew, hall⟩ := hperf.actions
        exact ⟨new, hnew, fun e he => hall e he ▸ hpin hf⟩
      · obtain hsame | ⟨p, rfl⟩ | ⟨p, v, rfl⟩ := hperf.pins.eq_or
        · exact .inl hsame
        · obtain rfl := hpin hf p rfl
          exact .inr (.inl hf)
        · obtain rfl := hpin hf p rfl
          exact .inr (.inr ⟨v, hf⟩)

end Sys2Proof.Machine
end

section
/-! RTEMP undisturbed (O60): a sensor action takes two steps from one step boundary to the next. -/

namespace Sys2Proof.Machine

theorem steps_of_step {s t : State} (h : step s = .next t) (n : Nat) : steps (n + 1) s = steps n t := by
  rw [steps, h]

/-- A plan reads neither the action in flight nor the inputs. -/
theorem planOf_launched (op : BitVec 4) (s : State) (a : Action) (inputs : List Input) (l : Label) :
    planOf op { s with inFlight := some a, inputs := inputs } l = planOf op s l := by
  obtain rfl | rfl | rfl | rfl | rfl | rfl | ⟨hplan, -⟩ := op_cases op
  · rfl
  · rfl
  · rfl
  · rfl
  · rfl
  · rfl
  · rw [hplan]
    rfl

/-- From a step boundary a sensor action takes two steps: its issue, and the answer (R120). -/
theorem State.Inv.steps_sensorOk {s : State} {op : BitVec 4} {l : Label} {stage : Stage} {t : Word} {rest : List Input}
    (h : s.Inv) (hat : s.atLabel op l) (hstage : planOf op s l = some stage) (hport : stage.action.port = .sensor)
    (hin : s.inputs = sensorOk s.epoch t ++ rest) :
    ∃ u, u = stage.onSensor true t { s with inFlight := some stage.action, inputs := rest } ∧ u.Inv ∧
      ∀ n, steps (n + 2) s = steps n u := by
  obtain ⟨hb, rfl, rfl, hf, hstop⟩ := hat
  have hissue : step s = .next { s with inFlight := some stage.action, inputs := .sensor s.epoch true t :: rest } := by
    rw [step_sequencer h hb hf hstop hin, ← action_of_planOf hstage, State.popInput_eq hin]
    generalize stage.action = a at hport
    cases a with
    | wait n => cases hport
    | _ => rfl
  have hinv := everyStepKeepsTheInvariant _ _ h hissue
  have hclose : stage.action ≠ .closeCtl := by
    intro hc
    rw [hc] at hport
    cases hport
  have hanswer := (hinv.step_eq_runCommand rfl hclose (by simp) (by simp)).trans
    (runCommand_sensor rfl hclose rfl ((planOf_launched _ s _ _ _).trans hstage))
  refine ⟨_, rfl, everyStepKeepsTheInvariant _ _ hinv hanswer, fun n => ?_⟩
  rw [steps_of_step hissue, steps_of_step hanswer]

/-- Settles O60: `Bind` and then `TRead`, which completes the command at once, for no handle is held. -/
theorem rtempBindsAndReads : Obligations.RtempBindsAndReads := by
  intro s r t rest h hat hin
  obtain ⟨hb, hop, hseq, hf, hstop⟩ := id hat
  have hheld : s.held = false := by rw [h.held_eq hb, hseq]; rfl
  obtain ⟨u, hu, hinv, hbind⟩ := h.steps_sensorOk (stage := .bindSensor (.goto .rtTread)) hat rfl rfl (by simpa using hin)
  rw [onSensor_bindSensor, Progress.settle_goto] at hu
  subst hu
  obtain ⟨v, hv, -, hread⟩ := hinv.steps_sensorOk (stage := .readTemp fun _ => .finished) ⟨hb, hop, rfl, rfl, hstop⟩ rfl rfl rfl
  rw [onSensor_readTemp, Progress.settle_finished_of_not_held (by exact hheld)] at hv
  subst hv
  rw [hbind 2, hread 0, steps]
  simp [hf, hstop]

end Sys2Proof.Machine
end

section
/-! Acceptance (O6, O15, O17, O18): `valid(w)` is well-formedness, and a CMD write outside BUSY leaves a state that is written out
field by field, so that what it takes from the state before can be read off. -/

namespace Sys2Proof

/-- PIN, FREQ and ARG as numbers (R70). -/
theorem toNat_fieldPin (w : Word) : (fieldPin w).toNat = w.toNat / 16 % 64 := by
  simp [fieldPin, Nat.shiftRight_eq_div_pow]

theorem toNat_fieldFreq (w : Word) : (fieldFreq w).toNat = w.toNat / 1024 % 64 := by
  simp [fieldFreq, Nat.shiftRight_eq_div_pow]

theorem toNat_fieldArg (w : Word) : (fieldArg w).toNat = w.toNat / 65536 := by
  have hlt := w.isLt
  simp only [fieldArg, BitVec.extractLsb'_toNat, Nat.shiftRight_eq_div_pow]
  omega

end Sys2Proof

namespace Sys2Proof.Machine

/-- Validation of R125 is well-formedness, for every command but STOP. -/
theorem wellFormed_eq_validWord {i : Instr} (hop : Laws.opcode i ≠ 7) : i.wellFormed = validWord (encode i) := by
  rw [validWord_eq, fieldOp_encode, Bool.eq_iff_iff]
  cases i with
  | stop pin freq arg => exact absurd rfl hop
  | fixed pin freq arg | pulse pin freq arg =>
    simp [wellFormed_fixed_iff, wellFormed_pulse_iff, encode, Laws.opcode, usesPin, usesFreq, readsDuty, pinLegal_iff,
      freqLegal_iff, dutyLegal_iff, and_assoc]
  | hyst pin freq arg | rpin pin freq arg =>
    simp [wellFormed_hyst_iff, wellFormed_rpin_iff, encode, Laws.opcode, usesPin, usesFreq, readsDuty, pinLegal_iff]
  | thermo pin freq arg =>
    simp [wellFormed_thermo_iff, encode, Laws.opcode, usesPin, usesFreq, readsDuty, pinLegal_iff, freqLegal_iff]
  | _ => simp [Instr.wellFormed, Instr.illFormed, Laws.opcode, usesPin, usesFreq, readsDuty]

/-- Settles O6: validation, with the fields as numbers. -/
theorem wellFormedMeansValid : Obligations.WellFormedMeansValid := by
  intro w hop
  rw [wellFormed_eq_validWord (by rwa [opcode_decodeWord]), encode_decodeWord]
  simp only [validWord, toNat_fieldOp, toNat_fieldPin, toNat_fieldFreq, toNat_fieldArg]
  have hlt : w.toNat % 16 < 16 := Nat.mod_lt _ (by decide)
  generalize w.toNat % 16 = op at hlt
  interval_cases op <;> simp [and_assoc]

/-- Settles O15: the word is issued outside BUSY, and validation decides how. -/
theorem acceptanceLatchesAndStartsOrFaults : Obligations.AcceptanceLatchesAndStartsOrFaults := by
  intro i s rest hin hb hop
  rw [exec_of_host hin, State.popInput_eq hin, State.cmdWrite, if_neg hop, State.issue, if_neg (by exact hb)]
  cases validWord (encode i) with
  | true => rfl
  | false => rfl

/-- Settles O18: the accepted state takes nothing from the one before but the fields that are the same in both. -/
theorem nothingElseCarriesOver : Obligations.NothingElseCarriesOver := by
  intro i s t hs ht hop hhead hverb hsfilt hpins hdrive hepoch hticks htrace hactions hinputs
  obtain ⟨rest, hin⟩ := List.head?_eq_some_iff.mp hhead
  rw [acceptanceLatchesAndStartsOrFaults i s rest hin hs hop,
    acceptanceLatchesAndStartsOrFaults i t rest (hinputs ▸ hin) ht hop, hverb, hsfilt, hpins, hdrive, hepoch, hticks, htrace,
    hactions]

/-- Settles O17: a word other than STOP is rejected while BUSY, and STOP is a request. -/
theorem cmdWritesThatStartNothing : Obligations.CmdWritesThatStartNothing := by
  intro i s rest hin
  rw [exec_of_host hin, State.popInput_eq hin]
  refine ⟨fun hb hop => ?_, fun hb hop => ?_, fun hb hop => ?_⟩
  · rw [State.cmdWrite, if_pos hop, State.requestStop, if_pos (by exact hb)]
  · rw [State.cmdWrite_of_busy hop (by exact hb)]
  · rw [State.cmdWrite, if_pos hop, State.requestStop, if_neg (by exact hb)]

end Sys2Proof.Machine
end

section
/-! Which command a step runs, and that it always answers a next state (O11, O13, O14). -/

namespace Sys2Proof.Machine

/-! ### The command that moves (R120) -/

theorem State.stopping_iff (s : State) : s.stopping = true ↔ ∃ e, s.ending = some e ∧ e.kind = .stopped := by
  simp [State.stopping]

/-- Settles O13: who moves, by STOPREQ, the action in flight and the terminating step under way. -/
theorem sequencerStepRunsTheLatchedCommand : Obligations.SequencerStepRunsTheLatchedCommand := by
  intro s hb hhost hreset
  have hstep : step s = exec s.moving s := by
    rw [step_other (fun rest hin => hreset (by simp [hin])) (fun a rest hin => hhost a (by simp [hin])), if_pos hb]
  rw [hstep, State.moving]
  refine ⟨fun hrun hending => ?_, fun hstop => ?_⟩
  · have hnot : ¬ s.stopping = true := fun h => by
      obtain ⟨e, he, hkind⟩ := s.stopping_iff.mp h
      exact hending e he hkind
    have hcommand : ((s.stopReq && s.inFlight.isNone) || s.stopping) = false := by
      obtain hreq | hf := hrun
      · simp [hreq, hnot]
      · simp [Option.isNone_eq_false_iff.mpr (Option.isSome_iff_ne_none.mpr hf), hnot]
    rw [hcommand, if_neg Bool.false_ne_true]
    rfl
  · rw [if_pos]
    obtain ⟨hreq, hf⟩ | h := hstop
    · simp [hreq, hf]
    · simp [s.stopping_iff.mpr h]

/-! ### No step stops the machine -/

/-- STOP's side of a step always answers a next state (R127). -/
theorem exists_next_of_execStop (pin freq : BitVec 6) (arg : BitVec 16) (s : State) :
    ∃ t, execStop pin freq arg s = .next t := by
  unfold execStop
  split
  · exact ⟨_, rfl⟩
  split
  · split <;> exact ⟨_, rfl⟩
  · split <;> exact ⟨_, rfl⟩
  · exact ⟨_, rfl⟩

/-- A command stops the machine only at a label it does not have, or with a wait in flight where it does not wait (log entry 6). -/
theorem exists_next_of_runCommand {plan : State → Label → Option Stage} {s : State} {stage : Stage}
    (hstage : plan s s.seq = some stage) (hwait : ∀ n, s.inFlight = some (.wait n) → ∃ m next, stage = .wait m next) :
    ∃ t, runCommand plan s = .next t := by
  unfold runCommand
  dsimp only
  rw [hstage]
  split
  · exact ⟨_, rfl⟩
  · split
    · exact ⟨_, rfl⟩
    · split <;> exact ⟨_, rfl⟩
  · split <;> exact ⟨_, rfl⟩
  · next n _ hf =>
    obtain ⟨m, next, rfl⟩ := hwait n hf
    exact ⟨_, rfl⟩
  · exact ⟨_, rfl⟩

/-- While BUSY the plan of L_OP has a stage at SEQ, for SEQ's action (R37). -/
theorem State.Inv.exists_stage_seq {s : State} (h : s.Inv) (hb : s.state = .busy) :
    ∃ stage, planOf s.lOp s s.seq = some stage ∧ stage.action = s.actionAt s.seq :=
  Option.map_eq_some_iff.mp (by rw [planOf_action, if_pos (h.label hb)])

/-- Settles O11: only the running command could stop the machine, and the invariant has its label in its plan. -/
theorem noStepStopsTheMachine : Obligations.NoStepStopsTheMachine := by
  intro s h
  obtain ⟨rest, -, hs⟩ | ⟨a, rest, w, hin, hw, -⟩ | ⟨off, size, rest, -, hs⟩ | ⟨off, size, w, rest, -, -, hs⟩ |
    ⟨-, hhost, hb, hs⟩ | ⟨-, -, -, hs⟩ := step_cases s
  · exact ⟨_, hs⟩
  · exact ⟨_, step_cmdWord hin hw⟩
  · exact ⟨_, hs⟩
  · exact ⟨_, hs⟩
  · rw [hs, exec_moving hhost]
    split
    · exact exists_next_of_execStop 0 0 0 s
    · obtain ⟨stage, hstage, haction⟩ := h.exists_stage_seq hb
      refine exists_next_of_runCommand hstage fun n hf => ?_
      have hwait : s.actionAt s.seq = .wait n := Option.some.inj ((h.awaiting hf nofun).inFlight.symm.trans hf)
      exact ⟨n, Stage.eq_wait_of_action (haction.trans hwait)⟩
  · exact ⟨_, hs⟩

/-! ### Inputs that belong to nothing -/

/-- An input that neither STOP's side of a step nor the running command's takes up only leaves the list. -/
theorem step_stray {s : State} (hreset : ∀ rest, s.inputs ≠ .reset :: rest) (hhost : ∀ a rest, s.inputs ≠ .host a :: rest)
    (hstop : s.state = .busy → execStop 0 0 0 s = .next s.popInput)
    (hrun : s.state = .busy → runCommand (planOf s.lOp) s = .next s.popInput) : step s = .next s.popInput := by
  rw [step_other hreset hhost]
  split
  · next hb =>
    rw [exec_moving hhost, hstop hb, hrun hb, ite_self]
  · rfl

/-- The GPIO controller's answer leaves an action of another port alone. -/
theorem Stage.onGpio_of_port {stage : Stage} (h : stage.action.port ≠ .gpio) (ok level : Bool) (s : State) :
    stage.onGpio ok level s = s := by
  cases stage with
  | bindSensor | readTemp | wait => rfl
  | _ => exact absurd rfl h

/-- The sensor's answer leaves an action of another port alone. -/
theorem Stage.onSensor_of_port {stage : Stage} (h : stage.action.port ≠ .sensor) (ok : Bool) (t : Word) (s : State) :
    stage.onSensor ok t s = s := by
  cases stage with
  | bindSensor | readTemp => exact absurd rfl h
  | _ => rfl

section stray
variable {s : State} {a : Action} {e : Nat} {ok level : Bool} {t : Word} {rest : List Input}

/-- With an action in flight the sequencer does not move (R111). -/
theorem step_sequencer_of_inFlight (hf : s.inFlight = some a) (hin : s.inputs = .sequencer :: rest) :
    step s = .next s.popInput :=
  step_stray (by simp [hin]) (by simp [hin]) (fun _ => by simp [execStop, hin, hf]) fun _ => by simp [runCommand, hin, hf]

/-- A tick counts only during a wait (log entry 19). -/
theorem step_tick_of_no_wait (hf : ∀ n, s.inFlight ≠ some (.wait n)) (hin : s.inputs = .tick :: rest) :
    step s = .next s.popInput := by
  refine step_stray (by simp [hin]) (by simp [hin]) (fun _ => by simp [execStop, hin]) fun _ => ?_
  cases hflight : s.inFlight with
  | none => simp [runCommand, hin, hflight]
  | some a => cases a with
    | wait n => exact absurd hflight (hf n)
    | _ => simp [runCommand, hin, hflight]

/-- With nothing in flight nothing is answered (log entry 9). -/
theorem step_gpio_of_not_inFlight (hf : s.inFlight = none) (hin : s.inputs = .gpio e ok level :: rest) :
    step s = .next s.popInput :=
  step_stray (by simp [hin]) (by simp [hin]) (fun _ => by simp [execStop, hin, hf]) fun _ => by simp [runCommand, hin, hf]

theorem step_sensor_of_not_inFlight (hf : s.inFlight = none) (hin : s.inputs = .sensor e ok t :: rest) :
    step s = .next s.popInput :=
  step_stray (by simp [hin]) (by simp [hin]) (fun _ => by simp [execStop, hin]) fun _ => by simp [runCommand, hin, hf]

/-- An answer of another epoch is ignored (R240, U18). -/
theorem step_gpio_of_epoch_ne (he : e ≠ s.epoch) (hin : s.inputs = .gpio e ok level :: rest) : step s = .next s.popInput := by
  cases hf : s.inFlight with
  | none => exact step_gpio_of_not_inFlight hf hin
  | some a =>
    refine step_stray (by simp [hin]) (by simp [hin]) (fun _ => ?_) fun _ => by simp [runCommand, hin, hf, he]
    cases a <;> simp [execStop, hin, hf, he]

theorem step_sensor_of_epoch_ne (he : e ≠ s.epoch) (hin : s.inputs = .sensor e ok t :: rest) : step s = .next s.popInput := by
  cases hf : s.inFlight with
  | none => exact step_sensor_of_not_inFlight hf hin
  | some a =>
    exact step_stray (by simp [hin]) (by simp [hin]) (fun _ => by simp [execStop, hin]) fun _ => by
      simp [runCommand, hin, hf, he]

/-- An answer of another port than that of the action in flight (log entry 9). -/
theorem State.Inv.step_gpio_of_port_ne (h : s.Inv) (hf : s.inFlight = some a) (ha : a.port ≠ .gpio)
    (hin : s.inputs = .gpio e ok level :: rest) : step s = .next s.popInput := by
  by_cases he : e = s.epoch
  · subst he
    have hclose : a ≠ .closeCtl := fun hc => ha (by rw [hc]; rfl)
    obtain ⟨stage, -, haction, hs⟩ := h.step_gpio hf hclose hin
    rw [hs, Stage.onGpio_of_port (haction ▸ ha), State.popInput_eq hin]
  · exact step_gpio_of_epoch_ne he hin

theorem State.Inv.step_sensor_of_port_ne (h : s.Inv) (hf : s.inFlight = some a) (ha : a.port ≠ .sensor)
    (hin : s.inputs = .sensor e ok t :: rest) : step s = .next s.popInput := by
  by_cases he : e = s.epoch
  · subst he
    by_cases hclose : a = .closeCtl
    · exact step_stray (by simp [hin]) (by simp [hin]) (fun _ => by simp [execStop, hin]) fun _ => by
        simp [runCommand, hin, hf, hclose]
    · obtain ⟨stage, hstage, haction⟩ := h.exists_stage hf hclose
      rw [h.step_eq_runCommand hf hclose (by simp [hin]) (by simp [hin]), runCommand_sensor hf hclose hin hstage,
        Stage.onSensor_of_port (haction ▸ ha), State.popInput_eq hin]
  · exact step_sensor_of_epoch_ne he hin

end stray

/-- Settles O14, a stray input at a time. -/
theorem strayInputsChangeNothing : Obligations.StrayInputsChangeNothing := by
  intro s x rest hin hstray
  rw [← State.popInput_eq hin]
  obtain ⟨hb, hhost, hreset⟩ | ⟨hf, ⟨e, ok, l, rfl⟩ | ⟨e, ok, t, rfl⟩ | rfl⟩ |
    ⟨h, a, hf, rfl | ⟨ha, e, ok, l, rfl⟩ | ⟨ha, e, ok, t, rfl⟩ | ⟨ha, rfl⟩⟩ |
    ⟨e, he, ⟨ok, l, rfl⟩ | ⟨ok, t, rfl⟩⟩ := hstray
  · refine step_stray ?_ ?_ (fun h => absurd h hb) fun h => absurd h hb
    · simpa [hin] using hreset
    · simpa [hin] using hhost
  · exact step_gpio_of_not_inFlight hf hin
  · exact step_sensor_of_not_inFlight hf hin
  · exact step_tick_of_no_wait (by simp [hf]) hin
  · exact step_sequencer_of_inFlight hf hin
  · exact h.step_gpio_of_port_ne hf ha hin
  · exact h.step_sensor_of_port_ne hf ha hin
  · refine step_tick_of_no_wait (fun n hn => ?_) hin
    obtain rfl : a = .wait n := Option.some.inj (hf.symm.trans hn)
    exact ha rfl
  · exact step_gpio_of_epoch_ne he hin
  · exact step_sensor_of_epoch_ne he hin

end Sys2Proof.Machine
end

section
/-! A pending STOP and the action in flight (O29). Nothing after an answer reads STOPREQ, and the last writes of a terminating step
clear it: an answer commutes with clearing it beforehand. -/

namespace Sys2Proof.Machine

/-! ### Clearing STOPREQ -/

/-- The state with no STOP pending. -/
def State.calm (s : State) : State := { s with stopReq := false }

@[simp] theorem State.calm_inFlight (s : State) : s.calm.inFlight = s.inFlight := rfl
@[simp] theorem State.calm_epoch (s : State) : s.calm.epoch = s.epoch := rfl
@[simp] theorem State.calm_inputs (s : State) : s.calm.inputs = s.inputs := rfl
@[simp] theorem State.calm_seq (s : State) : s.calm.seq = s.seq := rfl
@[simp] theorem State.popInput_calm (s : State) : s.calm.popInput = s.popInput.calm := rfl
@[simp] theorem State.calm_ending (s : State) : s.calm.ending = s.ending := rfl

theorem State.finish_calm (k : EndKind) (s : State) : s.calm.finish k = (s.finish k).calm := by cases k <;> rfl

theorem State.terminate_calm (k : EndKind) (before s : State) :
    State.terminate k before.calm s.calm = (State.terminate k before s).calm := by
  obtain ⟨hheld, hs⟩ | ⟨hheld, hs⟩ := State.terminate_cases k before s <;> rw [hs]
  · exact State.terminate_of_held (s := s.calm) hheld k _
  · rw [State.terminate_of_not_held (s := s.calm) hheld, State.finish_calm]

theorem State.closeAnswered_calm (s : State) : s.calm.closeAnswered = s.closeAnswered.calm := by
  obtain ⟨e, he, hs⟩ | ⟨he, hs⟩ := State.closeAnswered_cases s <;> rw [hs]
  · have hclosed : s.calm.closeAnswered = s.calm.closed e := by simp [State.closeAnswered, he]
    rw [hclosed, State.closed_eq, State.closed_eq, ← State.finish_calm]
    rfl
  · simp [State.closeAnswered, he]

theorem State.driven_calm (p : BitVec 6) (v : Bool) (s : State) : s.calm.driven p v = (s.driven p v).calm := by
  rw [State.driven_eq_setLogs, State.driven_eq_setLogs]
  rfl

/-! ### The computation after an answer -/

/-- The same computation, with no STOP pending. -/
def Progress.calm : Progress → Progress
  | .goto l s => .goto l s.calm
  | .finished s => .finished s.calm

theorem Progress.settle_calm (before : State) (p : Progress) : p.calm.settle before.calm = (p.settle before).calm := by
  cases p with
  | goto l s => rfl
  | finished s => exact State.terminate_calm .done before s

/-- The computation does not read STOPREQ. -/
def IgnoresStop (next : State → Progress) : Prop := ∀ u : State, next u.calm = (next u).calm

/-- No computation of the stage reads STOPREQ. -/
def Stage.IgnoresStop : Stage → Prop
  | .openCtl next => Machine.IgnoresStop next
  | .cfgPin _ next => Machine.IgnoresStop next
  | .setPin _ _ next => Machine.IgnoresStop next
  | .getPin _ next => ∀ g, Machine.IgnoresStop (next g)
  | .bindSensor next => Machine.IgnoresStop next
  | .readTemp next => ∀ t, Machine.IgnoresStop (next t)
  | .wait _ next => Machine.IgnoresStop next

theorem ignoresStop_goto (l : Label) : IgnoresStop (.goto l) := fun _ => rfl

theorem ignoresStop_finished : IgnoresStop .finished := fun _ => rfl

theorem ignoresStop_waitOr (n : Nat) (l : Label) {skipped : State → Progress} (h : IgnoresStop skipped) :
    IgnoresStop (waitOr n l skipped) := by
  intro u
  unfold waitOr
  split
  · exact h u
  · rfl

theorem ignoresStop_hystAfterTread (t : Word) : IgnoresStop (hystAfterTread t) := by
  intro u
  rw [hystAfterTread_eq, hystAfterTread_eq]
  rfl

theorem ignoresStop_hystAfterGet (g : Bool) : IgnoresStop (hystAfterGet g) := by
  intro u
  rw [hystAfterGet_eq, hystAfterGet_eq]
  rfl

theorem ignoresStop_hystSet : IgnoresStop fun s => hystDecide (if s.hystLevel then .on else .off) s := by
  intro u
  dsimp only
  rw [hystDecide_eq_decisions, hystDecide_eq_decisions]
  rfl

theorem ignoresStop_thermoAfterGet (g : Bool) : IgnoresStop (thermoAfterGet g) := by
  intro u
  rw [thermoAfterGet_eq, thermoAfterGet_eq]
  rfl

theorem ignoresStop_thermoElapsed (n : Nat) : IgnoresStop (thermoElapsed n) := by
  intro u
  unfold thermoElapsed
  rw [apply_ite Progress.calm]
  rfl

theorem ramp_calm (t : Word) (u : State) : ramp t u.calm = (ramp t u).map id State.calm := by
  unfold ramp
  dsimp only
  rw [apply_ite (Prod.map id State.calm), apply_ite (Prod.map id State.calm)]
  rfl

theorem evaluate_calm (t : Word) (u : State) : evaluate t u.calm = (evaluate t u).map id State.calm := by
  unfold evaluate
  rw [ramp_calm, apply_ite (Prod.map id State.calm), apply_ite (Prod.map id State.calm), apply_ite (Prod.map id State.calm),
    apply_ite (Prod.map id State.calm)]
  rfl

theorem ignoresStop_thermoAfterTread (t : Word) : IgnoresStop (thermoAfterTread t) := by
  intro u
  unfold thermoAfterTread
  rw [evaluate_calm]
  obtain ⟨d, v⟩ := evaluate t u
  simp only [Prod.map, id, State.emitDecision_eq_decisions]
  rfl

/-! ### The plans -/

theorem pulseStage_ignoresStop {d : Nat} {s : State} {ret : State → Progress} (h : IgnoresStop ret) {l : Label} {stage : Stage}
    (hstage : pulseStage d s ret l = some stage) : stage.IgnoresStop := by
  cases l <;> cases hstage
  case puSetH => exact ignoresStop_waitOr _ _ (ignoresStop_goto _)
  case puWaitH => exact ignoresStop_goto _
  case puSetL => exact ignoresStop_waitOr _ _ h
  case puWaitL => exact h

theorem fixedPlan_ignoresStop {s : State} {l : Label} {stage : Stage} (hstage : fixedPlan s l = some stage) :
    stage.IgnoresStop := by
  unfold fixedPlan at hstage
  split at hstage
  · cases hstage; exact ignoresStop_goto _
  · cases hstage; exact ignoresStop_goto _
  · cases hstage; exact ignoresStop_finished
  · exact pulseStage_ignoresStop (ignoresStop_goto _) hstage

theorem pulsePlan_ignoresStop {s : State} {l : Label} {stage : Stage} (hstage : pulsePlan s l = some stage) :
    stage.IgnoresStop := by
  unfold pulsePlan at hstage
  split at hstage
  · cases hstage; exact ignoresStop_goto _
  · cases hstage; exact ignoresStop_goto _
  · exact pulseStage_ignoresStop ignoresStop_finished hstage

theorem hystPlan_ignoresStop {s : State} {l : Label} {stage : Stage} (hstage : hystPlan s l = some stage) :
    stage.IgnoresStop := by
  cases l <;> cases hstage
  case pOpen => exact ignoresStop_goto _
  case pCfg => exact fun _ => rfl
  case hyBind => exact ignoresStop_goto _
  case hyTread => exact ignoresStop_hystAfterTread
  case hyGet => exact ignoresStop_hystAfterGet
  case hySet => exact ignoresStop_hystSet
  case hyWait => exact fun _ => rfl

theorem thermoPlan_ignoresStop {s : State} {l : Label} {stage : Stage} (hstage : thermoPlan s l = some stage) :
    stage.IgnoresStop := by
  unfold thermoPlan at hstage
  split at hstage
  · cases hstage; exact ignoresStop_goto _
  · cases hstage; exact fun _ => rfl
  · cases hstage; exact ignoresStop_thermoAfterGet
  · cases hstage; exact ignoresStop_goto _
  · cases hstage; exact ignoresStop_thermoElapsed _
  · cases hstage; exact ignoresStop_goto _
  · cases hstage; exact ignoresStop_thermoAfterTread
  · exact pulseStage_ignoresStop (ignoresStop_thermoElapsed _) hstage

theorem rpinPlan_ignoresStop {s : State} {l : Label} {stage : Stage} (hstage : rpinPlan s l = some stage) :
    stage.IgnoresStop := by
  cases l <;> cases hstage
  case pOpen => exact ignoresStop_goto _
  case rpGet => exact fun _ => ignoresStop_finished

theorem rtempPlan_ignoresStop {s : State} {l : Label} {stage : Stage} (hstage : rtempPlan s l = some stage) :
    stage.IgnoresStop := by
  cases l <;> cases hstage
  case rtBind => exact ignoresStop_goto _
  case rtTread => exact fun _ => ignoresStop_finished

theorem planOf_ignoresStop {op : BitVec 4} {s : State} {l : Label} {stage : Stage} (hstage : planOf op s l = some stage) :
    stage.IgnoresStop := by
  obtain rfl | rfl | rfl | rfl | rfl | rfl | ⟨hplan, -⟩ := op_cases op
  · exact fixedPlan_ignoresStop hstage
  · exact hystPlan_ignoresStop hstage
  · exact thermoPlan_ignoresStop hstage
  · exact rpinPlan_ignoresStop hstage
  · exact rtempPlan_ignoresStop (s := s) hstage
  · exact pulsePlan_ignoresStop hstage
  · rw [hplan] at hstage
    cases hstage

/-- Which stage stands at a label does not depend on STOPREQ. -/
theorem planOf_calm (op : BitVec 4) (s : State) (l : Label) : planOf op s.calm l = planOf op s l := by
  obtain rfl | rfl | rfl | rfl | rfl | rfl | ⟨hplan, -⟩ := op_cases op
  · rfl
  · rfl
  · rfl
  · rfl
  · rfl
  · rfl
  · rw [hplan]
    rfl

/-! ### The answers -/

theorem IgnoresStop.settle {next : State → Progress} (h : IgnoresStop next) (before u : State) :
    (next u.calm).settle before.calm = ((next u).settle before).calm := by
  rw [h u, Progress.settle_calm]

theorem onGpio_calm {stage : Stage} (h : stage.IgnoresStop) (ok level : Bool) (s : State) :
    stage.onGpio ok level s.calm = (stage.onGpio ok level s).calm := by
  cases stage with
  | openCtl next =>
    cases ok
    · exact State.terminate_calm _ s (s.land.record .openCtl .fail)
    · exact IgnoresStop.settle h s s.opened
  | cfgPin p next =>
    cases ok
    · exact State.terminate_calm _ s (s.configFailed p)
    · exact IgnoresStop.settle h s (s.configured p)
  | setPin p v next =>
    cases ok
    · exact State.terminate_calm _ s (s.driveFailed p v)
    · show (next (s.calm.driven p v)).settle s.calm = _
      rw [State.driven_calm]
      exact IgnoresStop.settle h s (s.driven p v)
  | getPin p next =>
    cases ok
    · exact State.terminate_calm _ s (s.sampleFailed p)
    · exact (h (s.readback p level)).settle s (s.sampled p (s.readback p level))
  | bindSensor next | readTemp next | wait n next => rfl

theorem onSensor_calm {stage : Stage} (h : stage.IgnoresStop) (ok : Bool) (t : Word) (s : State) :
    stage.onSensor ok t s.calm = (stage.onSensor ok t s).calm := by
  cases stage with
  | bindSensor next =>
    cases ok
    · exact State.terminate_calm _ s (s.land.record .bindSensor .fail)
    · exact IgnoresStop.settle h s s.bound
  | readTemp next => exact (h t).settle s (s.temperature t)
  | openCtl next | cfgPin p next | setPin p v next | getPin p next | wait n next => rfl

/-- The outcome with no STOP pending. -/
def calmOutcome : Host.Outcome State Fault Refusal → Host.Outcome State Fault Refusal
  | .next t => .next t.calm
  | .fault r => .fault r
  | .refused r => .refused r

/-- With an action other than `Wait` in flight, what the running command does with an input does not depend on STOPREQ (R213). -/
theorem runCommand_calm {s : State} {a : Action} (hf : s.inFlight = some a) (ha : ∀ n, a ≠ .wait n) (op : BitVec 4) :
    runCommand (planOf op) s.calm = calmOutcome (runCommand (planOf op) s) := by
  have hignores (stage) (hs : planOf op s s.seq = some stage) : stage.IgnoresStop := planOf_ignoresStop hs
  simp only [runCommand, State.popInput_calm, State.calm_inputs, State.calm_inFlight, State.calm_epoch, State.calm_seq,
    planOf_calm, hf]
  generalize planOf op s s.seq = stage? at hignores
  cases s.inputs.head?.getD .sequencer with
  | gpio epoch ok level =>
    dsimp only
    split
    · rfl
    split
    · exact congrArg _ (State.closeAnswered_calm s.popInput)
    cases stage? with
    | none => rfl
    | some stage => exact congrArg _ (onGpio_calm (hignores stage rfl) ok level s.popInput)
  | sensor epoch ok t =>
    dsimp only
    split
    · rfl
    cases stage? with
    | none => rfl
    | some stage => exact congrArg _ (onSensor_calm (hignores stage rfl) ok t s.popInput)
  | tick => cases a with
    | wait n => exact absurd rfl (ha n)
    | _ => rfl
  | sequencer | host | reset => rfl

/-! ### How an answer leaves STATE and STOPREQ -/

/-- The command still runs, with STOPREQ as it was, or has ended by itself, with STOPREQ cleared (R127, R128, R210). -/
def State.RunsOrEnds (s t : State) : Prop :=
  (t.state = s.state ∧ t.stopReq = s.stopReq) ∨ ((t.state = .done ∨ t.state = .fault) ∧ t.stopReq = false)

theorem State.runsOrEnds_finish (s u : State) {k : EndKind} (hk : k ≠ .stopped) : s.RunsOrEnds (u.finish k) := by
  cases k with
  | done => exact .inr ⟨.inl rfl, rfl⟩
  | stopped => exact absurd rfl hk
  | fault code => exact .inr ⟨.inr rfl, rfl⟩

theorem State.runsOrEnds_terminate {s u : State} {k : EndKind} (hk : k ≠ .stopped) (before : State)
    (hstate : u.state = s.state) (hstop : u.stopReq = s.stopReq) : s.RunsOrEnds (State.terminate k before u) := by
  obtain ⟨-, hs⟩ | ⟨-, hs⟩ := State.terminate_cases k before u <;> rw [hs]
  · exact .inl ⟨hstate, hstop⟩
  · exact s.runsOrEnds_finish u hk

theorem Progress.runsOrEnds_settle {s : State} {p : Progress} (before : State) (hstate : p.reached.state = s.state)
    (hstop : p.reached.stopReq = s.stopReq) : s.RunsOrEnds (p.settle before) := by
  cases p with
  | goto l u => exact .inl ⟨hstate, hstop⟩
  | finished u => exact State.runsOrEnds_terminate (by simp) before hstate hstop

theorem FramedNext.runsOrEnds {next : State → Progress} (h : FramedNext next) {s u : State} (before : State)
    (hstate : u.state = s.state) (hstop : u.stopReq = s.stopReq) : s.RunsOrEnds ((next u).settle before) := by
  obtain ⟨usec, trace, hs⟩ := h u
  exact Progress.runsOrEnds_settle before (by rw [hs]; exact hstate) (by rw [hs]; exact hstop)

theorem onGpio_runsOrEnds {evaluates : Prop} {stage : Stage} (h : stage.Framed evaluates) (ok level : Bool) (s : State) :
    s.RunsOrEnds (stage.onGpio ok level s) := by
  obtain ⟨next, rfl, -, hs⟩ | ⟨next, rfl, -, hs⟩ | ⟨p, next, rfl, -, hs⟩ | ⟨p, next, rfl, -, hs⟩ |
    ⟨p, v, next, rfl, -, hs⟩ | ⟨p, v, next, rfl, -, hs⟩ | ⟨p, next, rfl, -, hs⟩ | ⟨p, next, rfl, -, hs⟩ | ⟨hs, -⟩ :=
    onGpio_cases ok level s stage <;> rw [hs]
  · exact FramedNext.runsOrEnds h s rfl rfl
  · exact State.runsOrEnds_terminate (by simp) s rfl rfl
  · exact FramedNext.runsOrEnds h s rfl rfl
  · exact State.runsOrEnds_terminate (by simp) s rfl rfl
  · rw [State.driven_eq_setLogs]
    exact FramedNext.runsOrEnds h s rfl rfl
  · exact State.runsOrEnds_terminate (by simp) s rfl rfl
  · exact (h (s.readback p level)).runsOrEnds s rfl rfl
  · exact State.runsOrEnds_terminate (by simp) s rfl rfl
  · exact .inl ⟨rfl, rfl⟩

theorem onSensor_runsOrEnds {evaluates : Prop} {stage : Stage} (h : stage.Framed evaluates) (ok : Bool) (t : Word) (s : State) :
    s.RunsOrEnds (stage.onSensor ok t s) := by
  obtain ⟨next, rfl, -, hs⟩ | ⟨next, rfl, -, hs⟩ | ⟨next, rfl, hs⟩ | ⟨hs, -⟩ := onSensor_cases ok t s stage <;> rw [hs]
  · exact FramedNext.runsOrEnds h s rfl rfl
  · exact State.runsOrEnds_terminate (by simp) s rfl rfl
  · obtain ⟨usec, trace, perc, sleep, hr, -⟩ := h t (s.temperature t)
    exact Progress.runsOrEnds_settle s (by rw [hr]; rfl) (by rw [hr]; rfl)
  · exact .inl ⟨rfl, rfl⟩

/-- The answer of a `Close()` that is not the STOP step's. -/
theorem State.closeAnswered_runsOrEnds {s : State} (h : ∀ e, s.ending = some e → e.kind ≠ .stopped) :
    s.RunsOrEnds s.closeAnswered := by
  obtain ⟨e, he, hs⟩ | ⟨-, hs⟩ := State.closeAnswered_cases s <;> rw [hs]
  · exact s.runsOrEnds_finish _ (h e he)
  · exact .inl ⟨rfl, rfl⟩

theorem runCommand_runsOrEnds {op : BitVec 4} {s t : State} {a : Action} (hf : s.inFlight = some a) (ha : ∀ n, a ≠ .wait n)
    (hending : ∀ e, s.ending = some e → e.kind ≠ .stopped) (h : runCommand (planOf op) s = .next t) : s.RunsOrEnds t := by
  obtain ⟨-, hnone, -⟩ | ⟨ok, level, -, -, rfl⟩ | ⟨ok, level, a, stage, -, -, -, hs, rfl⟩ |
    ⟨ok, r, a, stage, -, -, -, hs, rfl⟩ | ⟨m, n, next, -, hwait, -, -⟩ | rfl := runCommand_next h
  · simp [hf] at hnone
  · exact State.closeAnswered_runsOrEnds (s := s.popInput) hending
  · exact onGpio_runsOrEnds (planOf_framed hs) ok level s.popInput
  · exact onSensor_runsOrEnds (planOf_framed hs) ok r s.popInput
  · exact absurd (Option.some.inj (hf.symm.trans hwait)) (ha m)
  · exact .inl ⟨rfl, rfl⟩

/-- An input other than a host access and reset, with an action in flight that is not the STOP step's `Close()`, is the running
command's, STOP pending or not (R127). -/
theorem step_eq_runCommand_of_inFlight {s : State} (hb : s.state = .busy) (hop : s.lOp ≠ 7) {a : Action}
    (hf : s.inFlight = some a) (hending : ∀ e, s.ending = some e → e.kind ≠ .stopped)
    (hreset : ∀ rest, s.inputs ≠ .reset :: rest) (hhost : ∀ a rest, s.inputs ≠ .host a :: rest) :
    step s = runCommand (planOf s.lOp) s := by
  have hstopping : s.stopping = false := Bool.eq_false_iff.mpr fun h => by
    obtain ⟨e, he, hkind⟩ := s.stopping_iff.mp h
    exact hending e he hkind
  have hmoves : s.stopMoves = false := by simpa [State.stopMoves, hstopping, hf] using hop
  rw [step_other hreset hhost, if_pos hb, exec_moving hhost, hmoves, if_neg Bool.false_ne_true]

/-- Settles O29: the answer is the running command's with and without the STOP, and commutes with clearing STOPREQ. -/
theorem pendingStopDoesNotTouchTheActionInFlight : Obligations.PendingStopDoesNotTouchTheActionInFlight := by
  intro s t a x rest h hstop hf ha hending hin hanswer hstep
  have hb := h.busy_of_inFlight hf
  have hop := lOp_ne_stop (h.label hb)
  have hreset (rest') : s.inputs ≠ .reset :: rest' := by
    obtain ⟨e, ok, l, rfl⟩ | ⟨e, ok, r, rfl⟩ := hanswer <;> simp [hin]
  have hhost (b rest') : s.inputs ≠ .host b :: rest' := by
    obtain ⟨e, ok, l, rfl⟩ | ⟨e, ok, r, rfl⟩ := hanswer <;> simp [hin]
  have hrun : runCommand (planOf s.lOp) s = .next t :=
    (step_eq_runCommand_of_inFlight hb hop hf hending hreset hhost).symm.trans hstep
  have hcalm : step s.calm = .next t.calm := by
    rw [step_eq_runCommand_of_inFlight (s := s.calm) hb hop hf hending hreset hhost]
    exact (runCommand_calm hf ha s.lOp).trans (by rw [hrun]; rfl)
  obtain ⟨hstate, hreq⟩ | ⟨hended, hreq⟩ := runCommand_runsOrEnds hf ha hending hrun
  · rw [hb] at hstate
    exact ⟨by simp [hstate], hcalm, by simp [hstate, hreq, hstop]⟩
  · obtain hstate | hstate := hended
    · exact ⟨by simp [hstate], hcalm, by simp [hstate, hreq]⟩
    · exact ⟨by simp [hstate], hcalm, by simp [hstate, hreq]⟩

end Sys2Proof.Machine
end

section
/-! Undisturbed stretches of a run (O34, O41, O42): from a step boundary, each answered action and each wait leads to the next step
boundary, and these stretches compose. -/

namespace Sys2Proof.Machine

/-! ### Ending -/

/-- The answer of a `Close()` ends the terminating step under way, whoever's it is (R106). -/
theorem step_close {s : State} {e : Ending} {ok level : Bool} {rest : List Input} (hb : s.state = .busy)
    (hf : s.inFlight = some .closeCtl) (he : s.ending = some e) (hin : s.inputs = .gpio s.epoch ok level :: rest) :
    step s = .next (State.closed e { s with inputs := rest }) := by
  have hclosed : State.closeAnswered { s with inputs := rest } = State.closed e { s with inputs := rest } := by
    unfold State.closeAnswered
    dsimp only
    rw [he]
  rw [step_other (by simp [hin]) (by simp [hin]), if_pos hb, exec_moving (by simp [hin]), execStop_close 0 0 0 hf hin,
    runCommand_close hf hin, ite_self, hclosed]

/-- STOP's move at a step boundary with STOPREQ = 1 is the STOP step (R127). -/
theorem exec_stop_sequencer (pin freq : BitVec 6) (arg : BitVec 16) {s : State} {rest : List Input} (hb : s.state = .busy)
    (hstop : s.stopReq = true) (hf : s.inFlight = none) (hin : s.inputs = .sequencer :: rest) :
    exec (.stop pin freq arg) s = .next (State.stopStep { s with inputs := rest }) := by
  simp [exec, execStop, hin, hf, hb, hstop, State.popInput_eq hin]

/-- Settles O34: the STOP step terminates the command, and the answer of its `Close()` makes the last writes. -/
theorem stopStepEndsTheCommand : Obligations.StopStepEndsTheCommand := by
  intro pin freq arg s rest hb hstop hf hin
  have hexec := exec_stop_sequencer pin freq arg hb hstop hf hin
  have hstep : step s = exec (.stop pin freq arg) s :=
    (sequencerStepRunsTheLatchedCommand s hb (by simp [hin]) (by simp [hin])).2 (.inl ⟨hstop, hf⟩)
  have hheldStep (hheld : s.held = true) : exec (.stop pin freq arg) s = .next { s with
      inFlight := some .closeCtl, ending := some ⟨.stopped, s.line, s.lvalid⟩, inputs := rest } := by
    rw [hexec, State.stopStep, State.terminate_of_held (by exact hheld)]
  refine ⟨hstep, fun hheld => ?_, hheldStep, fun ok l rest' hheld hrest => ?_⟩
  · rw [hexec, State.stopStep, State.terminate_of_not_held (by exact hheld)]
    rfl
  · rw [steps_of_step (hstep.trans (hheldStep hheld)), steps_of_step (step_close (by exact hb) rfl rfl (by exact hrest)), steps]
    simp [State.closed_eq, State.finish, hf]

/-- Settles O42: the low wait's last tick completes the command, which holds the handle. -/
theorem pulseCompletesWithItsLowWait : Obligations.PulseCompletesWithItsLowWait := by
  intro pin freq arg s n rest h hf hseq hw hin
  have hheld : s.held = true := by rw [h.held_eq (h.busy_of_inFlight hf), hseq]; rfl
  rw [exec_lastTick rfl hf hw hin hseq rfl, Progress.settle_finished_of_held (by exact hheld)]
  rfl

/-! ### Stretches of a run -/

/-- From `s` the next `k` steps lead to `u`, in the invariant. -/
structure State.Leads (s : State) (k : Nat) (u : State) : Prop where
  inv : u.Inv
  steps_eq : ∀ n, steps (n + k) s = steps n u

theorem State.Leads.steps {s u : State} {k : Nat} (h : s.Leads k u) : steps k s = .next u := by
  simpa [Machine.steps] using h.steps_eq 0

theorem State.Leads.of_step {s u : State} (h : s.Inv) (hs : step s = .next u) : s.Leads 1 u :=
  ⟨everyStepKeepsTheInvariant _ _ h hs, steps_of_step hs⟩

theorem State.Leads.trans {s t u : State} {j k : Nat} (hst : s.Leads j t) (htu : t.Leads k u) : s.Leads (j + k) u :=
  ⟨htu.inv, fun n => by rw [Nat.add_comm j k, ← Nat.add_assoc, hst.steps_eq, htu.steps_eq]⟩

theorem State.Leads.of_eq {s t u : State} {j k : Nat} (h : s.Leads j t) (hk : j = k) (hu : t = u) : s.Leads k u :=
  hk ▸ hu ▸ h

/-- A settled step shows of the state it began in LINE and LVALID alone (R54). -/
theorem Progress.settle_congr {before before' : State} (hline : before.line = before'.line)
    (hlvalid : before.lvalid = before'.lvalid) {p p' : Progress} (hp : p = p') : p.settle before = p'.settle before' := by
  subst hp
  cases p with
  | goto l u => rfl
  | finished u => simp only [Progress.settle, State.complete, State.terminate, hline, hlvalid]

/-- A plan reads neither the action in flight, nor WREM and the tick count, nor the inputs. -/
theorem planOf_inFlight (op : BitVec 4) (s : State) (inFlight : Option Action) (wrem : BitVec 21) (ticks : Nat)
    (inputs : List Input) (l : Label) : planOf op { s with inFlight, wrem, ticks, inputs } l = planOf op s l := by
  obtain rfl | rfl | rfl | rfl | rfl | rfl | ⟨hplan, -⟩ := op_cases op
  · rfl
  · rfl
  · rfl
  · rfl
  · rfl
  · rfl
  · rw [hplan]
    rfl

section stretches
variable {s : State} {op : BitVec 4} {l : Label} {rest : List Input}

/-- From a step boundary a GPIO action answered ok leads to what its computation makes of the answer (R120). -/
theorem State.Inv.leads_gpioOk {stage : Stage} {level : Bool} (h : s.Inv) (hat : s.atLabel op l)
    (hstage : planOf op s l = some stage) (hport : stage.action.port = .gpio)
    (hclose : stage.action ≠ .closeCtl) (hin : s.inputs = gpioOk s.epoch level ++ rest) :
    s.Leads 2 (stage.onGpio true level { s with inFlight := some stage.action, inputs := rest }) := by
  obtain ⟨hb, rfl, rfl, hf, hstop⟩ := hat
  have hissue : step s = .next { s with inFlight := some stage.action, inputs := .gpio s.epoch true level :: rest } := by
    rw [step_sequencer h hb hf hstop hin, ← action_of_planOf hstage, State.popInput_eq hin]
    generalize stage.action = a at hport
    cases a with
    | wait n => cases hport
    | _ => rfl
  have hlaunched := State.Leads.of_step h hissue
  refine hlaunched.trans (.of_step hlaunched.inv ?_)
  exact (hlaunched.inv.step_eq_runCommand rfl hclose (by simp) (by simp)).trans
    (runCommand_gpio rfl hclose rfl ((planOf_launched _ s _ _ _).trans hstage))

/-- A tick of the wait in progress is taken up by the wait of SEQ (R107). -/
theorem State.Inv.step_waitTick {n : Nat} {next : State → Progress} (h : s.Inv) (hf : s.inFlight = some (.wait n))
    (hstage : planOf s.lOp s s.seq = some (.wait n next)) (hin : s.inputs = .tick :: rest) :
    step s = .next (State.waitTick n next { s with inputs := rest }) :=
  (h.step_eq_runCommand hf nofun (by simp [hin]) (by simp [hin])).trans (runCommand_tick hf hin hstage)

/-- The last ticks of a wait in progress lead to what the computation after it makes of them (R107). -/
theorem State.Inv.leads_ticks {n : Nat} {next : State → Progress} (k : Nat) (h : s.Inv) (hstop : s.stopReq = false)
    (hf : s.inFlight = some (.wait n)) (hstage : planOf s.lOp s s.seq = some (.wait n next)) (hw : s.wrem.toNat = k + 1)
    (hin : s.inputs = List.replicate (k + 1) .tick ++ rest) :
    s.Leads (k + 1) ((next { s with
      wrem := 0, ticks := s.ticks + (k + 1), inFlight := none, actions := s.actions ++ [⟨.wait n, .completed⟩]
      inputs := rest }).settle s) := by
  induction k generalizing s with
  | zero =>
    have hlast := h.step_waitTick hf hstage hin
    rw [State.waitTick_last (by exact BitVec.eq_of_toNat_eq hw)] at hlast
    exact .of_step h (hlast.trans (congrArg _ (Progress.settle_congr rfl rfl rfl)))
  | succ k ih =>
    have hcount := h.step_waitTick (rest := List.replicate (k + 1) Input.tick ++ rest) hf hstage hin
    have hne : s.wrem ≠ 1 := fun h1 => by simp [h1] at hw
    rw [State.waitTick, if_neg (by exact hne), if_neg (by simp [hstop])] at hcount
    have hfirst := State.Leads.of_step h hcount
    have hw' : (s.wrem - 1).toNat = k + 1 := by bv_omega
    have hrest := ih hfirst.inv hstop hf ((planOf_inFlight _ s _ _ _ _ _).trans hstage) hw' rfl
    refine (hfirst.trans hrest).of_eq (Nat.add_comm _ _) (Progress.settle_congr rfl rfl (congrArg next ?_))
    have hticks : s.ticks + 1 + (k + 1) = s.ticks + (k + 1 + 1) := by omega
    simp only [State.countTick, hticks]

/-- From a step boundary a wait and all its ticks lead to what the computation after it makes of them (R107). -/
theorem State.Inv.leads_waitFor {n : Nat} {next : State → Progress} (h : s.Inv) (hat : s.atLabel op l)
    (hstage : planOf op s l = some (.wait n next)) (hin : s.inputs = waitFor n ++ rest) :
    s.Leads (waitFor n).length ((next { s with
      ticks := s.ticks + n, actions := s.actions ++ waitEvents n, inputs := rest }).settle s) := by
  obtain ⟨hb, rfl, rfl, hf, hstop⟩ := hat
  obtain ⟨-, -, hphase⟩ := (State.inv_iff_of_busy hb).mp h
  obtain ⟨-, -, hw⟩ := hphase.atBoundary hf
  have haction : s.actionAt s.seq = .wait n := (action_of_planOf hstage).symm
  have hbounded := h.waitBounded_actionAt hb
  rw [haction] at hbounded
  obtain ⟨wrem, hlaunch, hwrem, hpos⟩ := State.launchAction_eq (s := s.popInput) hw hbounded
  obtain ⟨k, rfl⟩ : ∃ k, n = k + 1 := ⟨n - 1, by omega⟩
  have hinputs : s.inputs = .sequencer :: (List.replicate (k + 1) Input.tick ++ rest) := hin
  have hissue := step_sequencer h hb hf hstop hinputs
  rw [haction, hlaunch, State.popInput_eq hinputs] at hissue
  have hfirst := State.Leads.of_step h hissue
  have hticks := hfirst.inv.leads_ticks k hstop rfl ((planOf_inFlight _ s _ _ _ _ _).trans hstage) hwrem rfl
  refine (hfirst.trans hticks).of_eq ?_ (Progress.settle_congr rfl rfl (congrArg next ?_))
  · simp [waitFor, Nat.add_comm]
  · simp [waitEvents, hf, hw]

/-- A `Set` answered ok, from a step boundary. -/
theorem State.Inv.leads_set {p : BitVec 6} {v level : Bool} {next : State → Progress} (h : s.Inv) (hat : s.atLabel op l)
    (hstage : planOf op s l = some (.setPin p v next)) (hin : s.inputs = gpioOk s.epoch level ++ rest) :
    s.Leads 2 ((next { s with
      line := v, lvalid := true, setDone := true, pins := pinPut p.toNat v s.pins, trace := s.trace ++ s.setLogs p v
      actions := s.actions ++ [⟨.setPin p v, .ok⟩], inputs := rest }).settle s) := by
  obtain ⟨-, -, -, hf, -⟩ := id hat
  refine (h.leads_gpioOk hat hstage rfl nofun hin).of_eq rfl ?_
  rw [onGpio_setPin, hf]
  exact Progress.settle_congr rfl rfl rfl

/-- A `Set` answered ok and the wait after it, or the `Set` alone where the wait is skipped (R107, R141). -/
theorem State.Inv.leads_setWait {p : BitVec 6} {v level : Bool} {n : Nat} {lw : Label} {ret : State → Progress} (h : s.Inv)
    (hat : s.atLabel op l) (hset : planOf op s l = some (.setPin p v (waitOr n lw ret)))
    (hwait : ∀ seq line lvalid setDone pins trace actions inputs,
      planOf op { s with seq, line, lvalid, setDone, pins, trace, actions, inputs } lw = some (.wait n ret))
    (hin : s.inputs = gpioOk s.epoch level ++ (waitFor n ++ rest)) :
    ∃ before seq, s.Leads (2 + (waitFor n).length) ((ret { s with
      seq, line := v, lvalid := true, setDone := true, pins := pinPut p.toNat v s.pins, ticks := s.ticks + n
      trace := s.trace ++ s.setLogs p v, actions := s.actions ++ ⟨.setPin p v, .ok⟩ :: waitEvents n
      inputs := rest }).settle before) := by
  have hfirst := h.leads_set hat hset hin
  obtain ⟨hb, hop, -, hf, hstop⟩ := hat
  by_cases hn : n = 0
  · subst hn
    exact ⟨s, s.seq, hfirst⟩
  · rw [waitOr, if_neg hn, Progress.settle_goto] at hfirst
    have hrest := hfirst.inv.leads_waitFor ⟨hb, hop, rfl, hf, hstop⟩ (hwait _ _ _ _ _ _ _ _) rfl
    refine ⟨_, lw, (hfirst.trans hrest).of_eq rfl (Progress.settle_congr rfl rfl (congrArg ret ?_))⟩
    simp only [List.append_assoc, List.singleton_append]

end stretches

/-! ### The pulse (R141) -/

/-- Driving a line again leaves the level driven last. -/
theorem pinPut_pinPut (p : Nat) (u v : Bool) (ps : Pins) : pinPut p v (pinPut p u ps) = pinPut p v ps := by
  induction ps with
  | nil => simp [pinPut]
  | cons kv rest ih =>
    obtain ⟨k, w⟩ := kv
    by_cases hk : p = k
    · simp [pinPut, hk]
    · by_cases hlt : p < k
      · simp [pinPut, hk, hlt]
      · simp [pinPut, hk, hlt, ih]

/-- At `s`, and wherever its pulse leads, the plan of `op` has `pulse(d)` and then `ret` at the pulse labels. -/
def State.PlansPulse (s : State) (op : BitVec 4) (d : Nat) (ret : State → Progress) : Prop :=
  ∀ seq line lvalid setDone pins ticks trace actions inputs, ∀ l ∈ [Label.puSetH, .puWaitH, .puSetL, .puWaitL],
    planOf op { s with seq, line, lvalid, setDone, pins, ticks, trace, actions, inputs } l = pulseStage d s ret l

theorem tHigh_add_tLow {d : Nat} (hd : d ≤ 100) (f : Nat) : tHigh d f + tLow d f = 100 * (10000 / f) := by
  rw [tHigh, tLow, ← Nat.add_mul, Nat.add_sub_cancel' hd]
  rfl

section pulse
variable {s : State} {op : BitVec 4} {d : Nat} {ret : State → Progress} {rest : List Input}

/-- The low phase: the `Set` to 0, and the low wait if there is one. -/
theorem State.Inv.leads_pulseLow (h : s.Inv) (hat : s.atLabel op .puSetL) (hplan : s.PlansPulse op d ret)
    (hin : s.inputs = gpioOk s.epoch false ++ (waitFor (tLow d s.lFreq.toNat) ++ rest)) :
    ∃ before seq, s.Leads (2 + (waitFor (tLow d s.lFreq.toNat)).length) ((ret { s with
      seq, line := false, lvalid := true, setDone := true, pins := pinPut s.lPin.toNat false s.pins
      ticks := s.ticks + tLow d s.lFreq.toNat, trace := s.trace ++ s.setLogs s.lPin false
      actions := s.actions ++ ⟨.setPin s.lPin false, .ok⟩ :: waitEvents (tLow d s.lFreq.toNat), inputs := rest }).settle before) :=
  h.leads_setWait hat (hplan _ _ _ _ _ _ _ _ _ .puSetL (by simp))
    (fun _ _ _ _ _ _ _ _ => hplan _ _ _ _ _ _ _ _ _ .puWaitL (by simp)) hin

/-- The high phase leads to the low one. -/
theorem State.Inv.leads_pulseHigh (h : s.Inv) (hat : s.atLabel op .puSetH) (hplan : s.PlansPulse op d ret)
    (hin : s.inputs = gpioOk s.epoch false ++ (waitFor (tHigh d s.lFreq.toNat) ++ rest)) :
    s.Leads (2 + (waitFor (tHigh d s.lFreq.toNat)).length) { s with
      seq := .puSetL, line := true, lvalid := true, setDone := true, pins := pinPut s.lPin.toNat true s.pins
      ticks := s.ticks + tHigh d s.lFreq.toNat, trace := s.trace ++ s.setLogs s.lPin true
      actions := s.actions ++ ⟨.setPin s.lPin true, .ok⟩ :: waitEvents (tHigh d s.lFreq.toNat), inputs := rest } := by
  obtain ⟨before, seq, hleads⟩ := h.leads_setWait hat (hplan _ _ _ _ _ _ _ _ _ .puSetH (by simp))
    (fun _ _ _ _ _ _ _ _ => hplan _ _ _ _ _ _ _ _ _ .puWaitH (by simp)) hin
  exact hleads

/-- One undisturbed pulse leads from its entry to its return (R141, R143). -/
theorem State.Inv.leads_pulse (h : s.Inv) (hat : s.atLabel op (pulseEntry d)) (hd : d ≤ 100) (hplan : s.PlansPulse op d ret)
    (hin : s.inputs = pulseInputs s.epoch d s.lFreq.toNat ++ rest) :
    ∃ before seq, s.Leads (pulseInputs s.epoch d s.lFreq.toNat).length ((ret { s with
      seq, line := false, lvalid := true, setDone := true, pins := pinPut s.lPin.toNat false s.pins
      ticks := s.ticks + 100 * (10000 / s.lFreq.toNat), trace := s.trace ++ s.pulseLogs d
      actions := s.actions ++ pulseEvents s.lPin d s.lFreq.toNat, inputs := rest }).settle before) := by
  rw [pulseEntry_eq] at hat
  rw [← tHigh_add_tLow hd]
  by_cases h0 : d = 0
  · subst h0
    obtain ⟨before, seq, hlow⟩ := h.leads_pulseLow hat hplan hin
    refine ⟨before, seq, hlow.of_eq ?_ (Progress.settle_congr rfl rfl (congrArg ret ?_))⟩
    · simp only [pulseInputs, gpioOk, tLow, usPerPercent, if_true, List.length_append, List.length_cons, List.length_nil]
    · simp [pulseEvents, State.pulseLogs, tHigh, tLow, usPerPercent]
  · rw [if_neg h0] at hat
    have hinputs : s.inputs = gpioOk s.epoch false ++ (waitFor (tHigh d s.lFreq.toNat) ++
        (gpioOk s.epoch false ++ (waitFor (tLow d s.lFreq.toNat) ++ rest))) := by
      simpa [pulseInputs, h0, tHigh, tLow, usPerPercent] using hin
    have hhigh := h.leads_pulseHigh hat hplan hinputs
    obtain ⟨hb, hop, -, hf, hstop⟩ := hat
    obtain ⟨before, seq, hlow⟩ := hhigh.inv.leads_pulseLow ⟨hb, hop, rfl, hf, hstop⟩
      (fun _ _ _ _ _ _ _ _ _ => hplan _ _ _ _ _ _ _ _ _) rfl
    refine ⟨before, seq, (hhigh.trans hlow).of_eq ?_ (Progress.settle_congr rfl rfl (congrArg ret ?_))⟩
    · simp only [pulseInputs, h0, tHigh, tLow, usPerPercent, gpioOk, if_false, List.length_append, List.length_cons,
        List.length_nil]
      omega
    · simp [pulseEvents, State.pulseLogs, h0, pinPut_pinPut, tHigh, tLow, usPerPercent, State.setLogs, Nat.add_assoc]

end pulse

/-- PULSE's pulse completes the command (R142). -/
theorem State.plansPulse_pulse (s : State) : s.PlansPulse 6 s.duty .finished := by
  intro seq line lvalid setDone pins ticks trace actions inputs l hl
  simp only [List.mem_cons, List.not_mem_nil, or_false] at hl
  obtain rfl | rfl | rfl | rfl := hl
  · rfl
  · rfl
  · rfl
  · rfl

/-- The prologue of a command that drives its line leads from `Open` to the command's body (R102, R103, R129). -/
theorem State.Inv.leads_prologue {s : State} {op : BitVec 4} {body : State → Progress} {l₁ l₂ : Bool} {rest : List Input}
    (h : s.Inv) (hat : s.atLabel op .pOpen) (hopen : planOf op s .pOpen = some (.openCtl (.goto .pCfg)))
    (hcfg : ∀ seq held actions inputs, planOf op { s with seq, held, actions, inputs } .pCfg = some (.cfgPin s.lPin body))
    (hin : s.inputs = gpioOk s.epoch l₁ ++ (gpioOk s.epoch l₂ ++ rest)) :
    ∃ before, s.Leads 4 ((body { s with
      seq := .pCfg, held := true, pins := pinForget s.lPin.toNat s.pins
      actions := s.actions ++ [⟨.openCtl, .ok⟩, ⟨.cfgPin s.lPin, .ok⟩], inputs := rest }).settle before) := by
  have hfirst := h.leads_gpioOk hat hopen rfl nofun hin
  obtain ⟨hb, hop, -, hf, hstop⟩ := hat
  rw [onGpio_openCtl, Progress.settle_goto, ← hf] at hfirst
  have hsecond := hfirst.inv.leads_gpioOk ⟨hb, hop, rfl, hf, hstop⟩ (hcfg _ _ _ _) rfl nofun rfl
  rw [onGpio_cfgPin] at hsecond
  refine ⟨_, (hfirst.trans hsecond).of_eq rfl (Progress.settle_congr rfl rfl (congrArg body ?_))⟩
  simp [hf]

/-- Settles O41: the prologue, one pulse, and the `Close()` of normal completion. -/
theorem pulseMakesExactlyOnePeriod : Obligations.PulseMakesExactlyOnePeriod := by
  intro s rest h hat hin
  obtain ⟨hb, hop, -, hf, hstop⟩ := id hat
  obtain ⟨-, -, hphase⟩ := (State.inv_iff_of_busy hb).mp h
  obtain ⟨-, hending, -⟩ := hphase.atBoundary hf
  obtain ⟨-, -, hduty⟩ := h.operands hb
  obtain ⟨before, hprologue⟩ := h.leads_prologue (body := .goto (pulseEntry s.duty)) hat rfl (fun _ _ _ _ => rfl)
    (by simpa only [List.append_assoc] using hin)
  rw [Progress.settle_goto] at hprologue
  obtain ⟨before', seq, hpulse⟩ := hprologue.inv.leads_pulse (d := s.lArg.toNat) (rest := closeOk s.epoch ++ rest)
    ⟨hb, hop, rfl, hf, hstop⟩ (hduty (.inr hop)) (State.plansPulse_pulse _) rfl
  rw [Progress.settle_finished_of_held (by rfl)] at hpulse
  have hclose := State.Leads.of_step hpulse.inv (step_close (by exact hb) rfl rfl rfl)
  have hrun := (hprologue.trans hpulse).trans hclose
  generalize hk : 5 + (pulseInputs s.epoch s.lArg.toNat s.lFreq.toNat).length = k
  refine State.Leads.steps (hrun.of_eq ?_ ?_)
  · dsimp only
    omega
  · rw [State.closed_eq, State.finish]
    simp [hf, hstop, hending, State.pulseLogs, State.setLogs]

end Sys2Proof.Machine
end

section
/-! The period of a pulse, and FIXED repeating it (O40, O45). -/

namespace Sys2Proof.Machine

/-! ### The period law (R144) -/

/-- The legal frequencies that divide 10000 (R144). -/
theorem dvd_10000_iff {f : Nat} (hf : f ≤ 50) : f ∣ 10000 ↔ f ∈ [1, 2, 4, 5, 8, 10, 16, 20, 25, 40, 50] := by
  interval_cases f <;> decide

/-- `f` periods and the shortfall make one second. -/
theorem period_mul_add_shortfall (f : Nat) : 100 * (10000 / f) * f + 1000000 % (100 * f) = 1000000 := by
  have hquotient : 1000000 / (100 * f) = 10000 / f := Nat.mul_div_mul_left (m := 100) 10000 f (by decide)
  calc 100 * (10000 / f) * f + 1000000 % (100 * f)
      = 100 * f * (1000000 / (100 * f)) + 1000000 % (100 * f) := by rw [hquotient, Nat.mul_right_comm]
    _ = 1000000 := Nat.div_add_mod _ _

/-- A pulse falls short of `1,000,000 / f` by nothing just where `f` divides 10000. -/
theorem period_mul_eq_iff (f : Nat) : 100 * (10000 / f) * f = 1000000 ↔ f ∣ 10000 := by
  have hsum := period_mul_add_shortfall f
  calc 100 * (10000 / f) * f = 1000000
      ↔ 1000000 % (100 * f) = 0 := by omega
    _ ↔ 100 * f ∣ 100 * 10000 := (Nat.dvd_iff_mod_eq_zero ..).symm
    _ ↔ f ∣ 10000 := Nat.mul_dvd_mul_iff_left (by decide)

/-- Settles O40: the shortfall is a remainder by `100 f`, and it is 0 just for the divisors of 10000. -/
theorem pulsePeriodLaw : Obligations.PulsePeriodLaw := by
  intro d f hd hf1 hf50
  rw [tHigh_add_tLow hd]
  exact ⟨rfl, (period_mul_eq_iff f).trans (dvd_10000_iff hf50), (period_mul_add_shortfall f).symm,
    Nat.mod_lt _ (by omega), dvd_10000_iff hf50⟩

/-! ### FIXED repeats its pulse (R150, R152) -/

/-- FIXED's pulse leads back to its high phase (R150). -/
theorem State.plansPulse_fixed (s : State) : s.PlansPulse 1 s.duty (.goto .puSetH) := by
  intro seq line lvalid setDone pins ticks trace actions inputs
  simp only [List.forall_mem_cons]
  exact ⟨rfl, rfl, rfl, rfl, nofun⟩

/-- Settles O45: one pulse whose return is its own entry, for a duty that has a high phase. -/
theorem fixedPulsesWithoutEnd : Obligations.FixedPulsesWithoutEnd := by
  intro s rest h hat hin hd1 hd99
  have hentry : pulseEntry s.lArg.toNat = .puSetH := if_pos (by omega)
  obtain ⟨before, seq, hpulse⟩ := h.leads_pulse (d := s.lArg.toNat) (hentry ▸ hat) (by omega) s.plansPulse_fixed hin
  rw [Progress.settle_goto] at hpulse
  obtain ⟨-, -, hseq, -, -⟩ := hat
  exact ⟨_, hpulse.steps, hpulse.inv, by rw [hseq]⟩

end Sys2Proof.Machine
end

section
/-! FIXED with duty 0 or 100: a `Set` that completes the command (O44). -/

namespace Sys2Proof.Machine

/-- A `Set` answered ok that is a command's last computation, and the answer of the `Close()` it issues, end the command
(R104, R106, R128). -/
theorem State.Inv.leads_setClose {s : State} {op : BitVec 4} {l : Label} {p : BitVec 6} {v level ok level' : Bool}
    {rest : List Input} (h : s.Inv) (hat : s.atLabel op l) (hheld : s.held = true)
    (hstage : planOf op s l = some (.setPin p v .finished))
    (hin : s.inputs = gpioOk s.epoch level ++ .gpio s.epoch ok level' :: rest) :
    s.Leads 3 { s with
      state := .done, seq := .idle, held := false, line := v, lvalid := true, setDone := true
      pins := pinPut p.toNat v s.pins, trace := s.trace ++ s.setLogs p v
      actions := s.actions ++ [⟨.setPin p v, .ok⟩, ⟨.closeCtl, .ok⟩], inputs := rest } := by
  have hset := h.leads_set hat hstage hin
  obtain ⟨hb, -, -, hf, hstop⟩ := hat
  obtain ⟨-, -, hphase⟩ := (State.inv_iff_of_busy hb).mp h
  obtain ⟨-, hending, -⟩ := hphase.atBoundary hf
  rw [Progress.settle_finished_of_held (by exact hheld)] at hset
  have hclose := State.Leads.of_step hset.inv (step_close (by exact hb) rfl rfl rfl)
  refine (hset.trans hclose).of_eq rfl ?_
  rw [State.closed_eq, State.finish]
  simp [hf, hstop, hending]

/-- FIXED's prologue leads to its one `Set` for a duty without a pulse (R150, R151). -/
theorem fixedPlan_pCfg_boundary {s : State} (hduty : s.duty = 0 ∨ s.duty = 100) :
    fixedPlan s .pCfg = some (.cfgPin s.lPin (.goto .fxSet)) := by
  rw [fixedPlan, if_pos hduty]

/-- Settles O44: the prologue, the one `Set`, and the `Close()` of normal completion. -/
theorem fixedBoundaryDutiesSetOnce : Obligations.FixedBoundaryDutiesSetOnce := by
  rintro s l₁ l₂ l₃ v rest h hat hduty rfl hin
  obtain ⟨hb, hop, -, hf, hstop⟩ := id hat
  obtain ⟨before, hprologue⟩ := h.leads_prologue (body := .goto .fxSet) hat rfl
    (fun _ _ _ _ => fixedPlan_pCfg_boundary hduty) (by simpa only [List.append_assoc] using hin)
  rw [Progress.settle_goto] at hprologue
  have hset := hprologue.inv.leads_setClose (v := decide (s.lArg.toNat = 100)) ⟨hb, hop, rfl, hf, hstop⟩ rfl rfl rfl
  refine State.Leads.steps ((hprologue.trans hset).of_eq rfl ?_)
  simp [State.setLogs]

end Sys2Proof.Machine
end

section
/-! HYST inside its band (O50): reading, read back and wait lead from one temperature read to the next. -/

namespace Sys2Proof.Machine

section hyst
variable {s : State} {rest : List Input}

/-- From a step boundary a sensor action answered ok leads to what its computation makes of the answer (R120). -/
theorem State.Inv.leads_sensorOk {op : BitVec 4} {l : Label} {stage : Stage} {t : Word} (h : s.Inv) (hat : s.atLabel op l)
    (hstage : planOf op s l = some stage) (hport : stage.action.port = .sensor)
    (hin : s.inputs = sensorOk s.epoch t ++ rest) :
    s.Leads 2 (stage.onSensor true t { s with inFlight := some stage.action, inputs := rest }) := by
  obtain ⟨u, rfl, hinv, hsteps⟩ := h.steps_sensorOk hat hstage hport hin
  exact ⟨hinv, hsteps⟩

/-- The level a `Get` reads back where a `Set` of this command has succeeded and nothing else drives the line (R105). -/
theorem State.Inv.readback_eq_pinLevel (h : s.Inv) (hb : s.state = .busy) (hending : s.ending = none)
    (hset : s.setDone = true) (hown : s.foreignDrive = false) :
    ∃ g, pinLevel s.lPin.toNat s.pins = some g ∧ ∀ draw, s.readback s.lPin draw = g := by
  obtain ⟨hknown, -⟩ := (h.standsAt hb hending).line hset
  obtain ⟨g, hg⟩ := Option.isSome_iff_exists.mp hknown
  exact ⟨g, hg, fun draw => by rw [State.readback_eq, if_pos ⟨hset, hown⟩, hg, Option.getD_some]⟩

/-- A reading that is not filtered leads to the read back (R162). -/
theorem State.Inv.leads_hystRead {t : Word} (h : s.Inv) (hat : s.atLabel 2 .hyTread)
    (hfilter : ¬ (s.lSfilt = true ∧ t = 0xFFFFFC19)) (hin : s.inputs = sensorOk s.epoch t ++ rest) :
    s.Leads 2 { s with
      seq := .hyGet, temp := t, actions := s.actions ++ [⟨.readTemp, .reading t⟩], inputs := rest } := by
  obtain ⟨-, -, -, hf, -⟩ := id hat
  refine (h.leads_sensorOk hat rfl rfl hin).of_eq rfl ?_
  rw [onSensor_readTemp, hystAfterTread_eq, if_neg (by exact hfilter), if_neg (by exact hfilter), List.append_nil,
    Progress.settle_goto, hf]

/-- A read back that asks for no switch leads to the wait, with the NONE record (R163, R166). -/
theorem State.Inv.leads_hystHold {g level : Bool} (h : s.Inv) (hat : s.atLabel 2 .hyGet) (hg : s.readback s.lPin level = g)
    (hkeep : ¬ s.switches g) (hin : s.inputs = gpioOk s.epoch level ++ rest) :
    s.Leads 2 { s with
      seq := .hyWait, line := g, lvalid := true, trace := s.trace ++ s.decisions s.temp .noChange 0 false
      actions := s.actions ++ [⟨.getPin s.lPin, .level g⟩], inputs := rest } := by
  subst hg
  obtain ⟨-, -, -, hf, -⟩ := id hat
  refine (h.leads_gpioOk hat rfl rfl nofun hin).of_eq rfl ?_
  rw [onGpio_getPin, hystAfterGet_eq, if_neg (by exact hkeep), if_neg (by exact hkeep), Progress.settle_goto, hf]
  rfl

/-- The whole wait of a tick leads to the temperature read of the next one, for the sensor is bound (R161). -/
theorem State.Inv.leads_hystWait (h : s.Inv) (hat : s.atLabel 2 .hyWait) (hbound : s.sbound = true)
    (hin : s.inputs = waitFor hystTick ++ rest) :
    s.Leads (waitFor hystTick).length { s with
      seq := .hyTread, ticks := s.ticks + hystTick, actions := s.actions ++ [⟨.wait hystTick, .completed⟩]
      inputs := rest } := by
  refine (h.leads_waitFor hat rfl hin).of_eq rfl ?_
  rw [Progress.settle_goto, State.hystStart, if_pos (by exact hbound), waitEvents, if_neg (by decide)]

/-- A reading in the band asks for no switch, whatever level is read back (R163, R166). -/
theorem State.not_switches_of_band (hlow : 1000 * s.lArg.toInt - 5000 ≤ s.temp.toInt)
    (hhigh : s.temp.toInt ≤ 1000 * s.lArg.toInt) (g : Bool) : ¬ s.switches g := by
  rintro (⟨habove, -⟩ | ⟨hbelow, -⟩)
  · omega
  · omega

/-- A whole tick in the band, with the level the `Get` reads back (R161, R162, R166). -/
theorem State.Inv.leads_hystBandTick {t : Word} {g level : Bool} (h : s.Inv) (hat : s.atLabel 2 .hyTread)
    (hfilter : ¬ (s.lSfilt = true ∧ t = 0xFFFFFC19)) (hlow : 1000 * s.lArg.toInt - 5000 ≤ t.toInt)
    (hhigh : t.toInt ≤ 1000 * s.lArg.toInt) (hg : s.readback s.lPin level = g)
    (hin : s.inputs = sensorOk s.epoch t ++ (gpioOk s.epoch level ++ (waitFor hystTick ++ rest))) :
    s.Leads (2 + 2 + (waitFor hystTick).length) { s with
      temp := t, line := g, lvalid := true, ticks := s.ticks + hystTick, trace := s.trace ++ s.decisions t .noChange 0 false
      actions := s.actions ++ [⟨.readTemp, .reading t⟩, ⟨.getPin s.lPin, .level g⟩, ⟨.wait hystTick, .completed⟩]
      inputs := rest } := by
  have hread := h.leads_hystRead hat hfilter hin
  obtain ⟨hb, hop, hseq, hf, hstop⟩ := hat
  obtain ⟨hbound, -⟩ := h.bind hb
  have hhold := hread.inv.leads_hystHold ⟨hb, hop, rfl, hf, hstop⟩ hg (State.not_switches_of_band hlow hhigh g) rfl
  have hwait := hhold.inv.leads_hystWait ⟨hb, hop, rfl, hf, hstop⟩ (hbound (by simp [hseq])) rfl
  refine ((hread.trans hhold).trans hwait).of_eq rfl ?_
  rw [← hseq, List.append_assoc, List.append_assoc]
  rfl

end hyst

/-- Settles O50: the level read back is the one driven last, and no reading in the band asks for another. -/
theorem hystBandIsIdempotent : Obligations.HystBandIsIdempotent := by
  intro s t l rest h hat hset hown hfilter hlow hhigh hin
  obtain ⟨hb, -, -, hf, -⟩ := id hat
  obtain ⟨-, -, hphase⟩ := (State.inv_iff_of_busy hb).mp h
  obtain ⟨-, hending, -⟩ := hphase.atBoundary hf
  obtain ⟨g, hlevel, hget⟩ := h.readback_eq_pinLevel hb hending hset hown
  rw [List.append_assoc, List.append_assoc] at hin
  have htick := h.leads_hystBandTick hat (not_and.mpr hfilter) hlow hhigh (hget l) hin
  rw [List.length_append, List.length_append]
  exact ⟨g, hlevel, htick.steps⟩

end Sys2Proof.Machine
end

section
/-! THERMO's evaluation (O51, O57, O58): the rounding, the evaluation as the rule of R176 and R178 says it, and the ramp of
readings above the target. -/

namespace Sys2Proof.Machine

/-! ### Rounding (R177) -/

/-- `roundDeg` as quotients: from zero on, and below zero by its mirror image. -/
theorem roundDeg_of_nonneg {t : Int} (h : 0 ≤ t) : roundDeg t = (t + 500) / 1000 := if_pos h

theorem roundDeg_of_neg {t : Int} (h : t < 0) : roundDeg t = -((-t + 500) / 1000) := if_neg (by omega)

/-- Settles O58: on either side of zero the rounding is a quotient with its remainder. -/
theorem roundingIsNearestTiesAway : Obligations.RoundingIsNearestTiesAway := by
  have hnear (t : Int) : -500 ≤ 1000 * roundDeg t - t ∧ 1000 * roundDeg t - t ≤ 500 ∧
      (1000 * roundDeg t - t = 500 → 0 ≤ t) ∧ (1000 * roundDeg t - t = -500 → t < 0) := by
    obtain h | h := lt_or_ge t 0
    · rw [roundDeg_of_neg h]
      omega
    · rw [roundDeg_of_nonneg h]
      omega
  refine ⟨hnear, fun w => ?_⟩
  obtain ⟨hlow, hhigh, -⟩ := hnear w.toInt
  have hmin : -2147483648 ≤ w.toInt := BitVec.le_toInt w
  have hmax : w.toInt < 2147483648 := BitVec.toInt_lt
  omega

/-! ### The evaluation -/

/-- The ramp by its rule, awake (R178). -/
theorem ramp_of_rule {t : Word} {u : State} {d : Decision} {sleep : Bool} {perc : BitVec 7} (hs : u.sleep = false)
    (h : (d, sleep, perc) =
      (if u.lArg.toInt < roundDeg t.toInt ∧ u.perc.toNat < 100 then (.inc, false, u.perc + 1)
      else if roundDeg t.toInt < u.lArg.toInt ∧ 0 < u.perc.toNat then (.dec, false, u.perc - 1)
      else (.hold, false, u.perc))) :
    ramp t u = (d, { u with perc, sleep }) := by
  rw [← hs] at h
  obtain ⟨hup, hlt, hr⟩ | ⟨hdown, hpos, hr⟩ | ⟨hup, hdown, hr⟩ := ramp_cases t u
  · rw [if_pos ⟨hup, hlt⟩] at h
    cases h
    exact hr
  · rw [if_neg fun hup => hdown.not_gt hup.1, if_pos ⟨hdown, hpos⟩] at h
    cases h
    exact hr
  · rw [if_neg (by exact hup), if_neg (by exact hdown)] at h
    cases h
    exact hr

/-- `evaluate` by the rule: the outcome, and SLEEP and PERC after it (R176, R178, R179). -/
theorem evaluate_of_rule {t : Word} {u : State} {d : Decision} {sleep : Bool} {perc : BitVec 7}
    (h : (d, sleep, perc) =
      (if u.lSfilt = true ∧ t = 0xFFFFFC19 then (.skip, u.sleep, u.perc)
      else if t.toInt < 1000 * u.lArg.toInt - 5000 ∧ u.sleep = false then (.sleepEnter, true, u.perc)
      else if 1000 * u.lArg.toInt ≤ t.toInt ∧ u.sleep = true then (.wake, false, u.perc)
      else if u.sleep = true then (.noChange, true, u.perc)
      else if u.lArg.toInt < roundDeg t.toInt ∧ u.perc.toNat < 100 then (.inc, false, u.perc + 1)
      else if roundDeg t.toInt < u.lArg.toInt ∧ 0 < u.perc.toNat then (.dec, false, u.perc - 1)
      else (.hold, false, u.perc))) :
    evaluate t u = (d, { u with perc, sleep }) := by
  simp only [← State.filtered_iff t u] at h
  obtain ⟨hf, he⟩ | ⟨hf, hlow, hs, he⟩ | ⟨hf, hhigh, hs, he⟩ | ⟨hf, hlow, hs, he⟩ | ⟨hf, hhigh, hs, he⟩ := evaluate_cases t u
  · rw [if_pos hf] at h
    cases h
    exact he
  · rw [if_neg (by simp [hf]), if_pos ⟨hlow, hs⟩] at h
    cases h
    exact he
  · rw [if_neg (by simp [hf]), if_neg (by simp [hs]), if_pos ⟨hhigh, hs⟩] at h
    cases h
    exact he
  · rw [if_neg (by simp [hf]), if_neg fun hbelow => hlow.not_gt hbelow.1, if_neg (by simp [hs]), if_neg (by simp [hs])] at h
    exact he.trans (ramp_of_rule hs h)
  · rw [if_neg (by simp [hf]), if_neg (by simp [hs]), if_neg fun habove => hhigh.not_ge habove.1, if_pos hs, ← hs] at h
    cases h
    exact he

/-- What the evaluation's outcome makes of the state: the record, USEC 0, and the next iteration's first label (R175, R180). -/
theorem thermoAfterTread_of_evaluate {t : Word} {u : State} {d : Decision} {sleep : Bool} {perc : BitVec 7}
    (h : evaluate t u = (d, { u with perc, sleep })) : thermoAfterTread t u = .goto (branchLabel sleep perc) { u with
      usec := 0, sleep, perc, trace := u.trace ++ u.decisions t d perc sleep } := by
  rw [thermoAfterTread, h]
  dsimp only
  rw [State.thermoStart_eq, State.emitDecision_eq_decisions]
  rfl

/-- Settles O51: the evaluation by its rule, and what follows it. -/
theorem thermoEvaluatesTheReading : Obligations.ThermoEvaluatesTheReading := by
  intro pin freq arg s ok t rest d sleep perc hf hseq hin hrule
  rw [exec_sensor rfl hf nofun hin hseq rfl, onSensor_readTemp,
    thermoAfterTread_of_evaluate (d := d) (sleep := sleep) (perc := perc) (evaluate_of_rule ?_)]
  · rfl
  · exact hrule

/-! ### The ramp of readings above the target (R181) -/

/-- Awake, a reading that is not below the band and rounds above the target raises PERC by 1, up to 100 (R178). -/
theorem evaluate_of_above {t : Word} {u : State} (hs : u.sleep = false) (hfilter : u.lSfilt = true → t ≠ 0xFFFFFC19)
    (hlow : 1000 * u.lArg.toInt - 5000 ≤ t.toInt) (habove : u.lArg.toInt < roundDeg t.toInt) :
    (evaluate t u).2 = { u with perc := if u.perc.toNat < 100 then u.perc + 1 else u.perc } := by
  have hawake : evaluate t u = ramp t u := by
    rw [evaluate, if_neg (by simpa [State.filtered_iff] using hfilter), if_neg fun hbelow => hlow.not_gt hbelow.1,
      if_neg (by simp [hs]), if_pos hs]
  rw [hawake]
  by_cases hlt : u.perc.toNat < 100
  · rw [ramp, if_pos ⟨habove, hlt⟩, if_pos hlt]
  · rw [ramp, if_neg fun hup => hlt hup.2, if_neg fun hdown => habove.not_gt hdown.1, if_neg hlt]

/-- `n` such evaluations raise PERC by `n`, up to 100, and change nothing else. -/
theorem iterate_evaluate_of_above {t : Word} {s : State} (hs : s.sleep = false) (hfilter : s.lSfilt = true → t ≠ 0xFFFFFC19)
    (hlow : 1000 * s.lArg.toInt - 5000 ≤ t.toInt) (habove : s.lArg.toInt < roundDeg t.toInt) (hperc : s.perc.toNat ≤ 100)
    (n : Nat) : ∃ perc : BitVec 7, perc.toNat = min 100 (s.perc.toNat + n) ∧
      (fun u => (evaluate t u).2)^[n] s = { s with perc } := by
  induction n with
  | zero => exact ⟨s.perc, (min_eq_right hperc).symm, rfl⟩
  | succ n ih =>
    obtain ⟨perc, hn, hiter⟩ := ih
    refine ⟨if perc.toNat < 100 then perc + 1 else perc, ?_, ?_⟩
    · split
      · bv_omega
      · omega
    · rw [Function.iterate_succ_apply', hiter]
      exact evaluate_of_above hs hfilter hlow habove

/-- Settles O57: from 50 on, up to 100. -/
theorem thermoRampsUpToFull : Obligations.ThermoRampsUpToFull := by
  intro n s t hs hperc hfilter hlow habove
  obtain ⟨perc, hn, hiter⟩ := iterate_evaluate_of_above hs hfilter hlow habove (by rw [hperc]; decide) n
  rw [hiter]
  rw [hperc] at hn
  exact ⟨hn, hs⟩

end Sys2Proof.Machine
end

section
/-! THERMO's window (O52, O54): what an iteration's end adds to USEC, and the pulses that fill the window. -/

namespace Sys2Proof.Machine

/-- The label after an iteration that leaves `usec` microseconds in the window: the evaluation's first, from 1,000,000 on, or the
next iteration's (R108, R171, R175). -/
def State.labelAfter (s : State) (usec : Nat) : Label :=
  if window ≤ usec then (if s.sbound = true then .thTread else .thBind) else branchLabel s.sleep s.perc

/-- An iteration's end adds its length to USEC and goes on at the label that asks for; the sum fits the register (R172 to R175). -/
theorem thermoElapsed_eq {n : Nat} {u : State} (husec : u.usec.toNat < window) (hn : n ≤ window) :
    thermoElapsed n u =
      .goto (u.labelAfter (u.usec.toNat + n)) { u with usec := BitVec.ofNat 21 (u.usec.toNat + n) } := by
  have hfits : (BitVec.ofNat 21 (u.usec.toNat + n)).toNat = u.usec.toNat + n := by
    rw [BitVec.toNat_ofNat]
    unfold window at husec hn
    omega
  obtain ⟨_, rfl, ⟨hfull, h⟩ | ⟨hroom, h⟩⟩ := thermoElapsed_cases n u
  · rw [hfits] at hfull
    rw [h, State.labelAfter, if_pos hfull]
  · rw [hfits] at hroom
    rw [h, State.labelAfter, if_neg hroom.not_ge, State.thermoStart_eq]

/-- Settles O52: the last tick of `thWait`, or of a pulse's low wait, ends the iteration. -/
theorem thermoIterationsFillTheWindow : Obligations.ThermoIterationsFillTheWindow := by
  rintro pin freq arg s m n rest hf hw hin husec (⟨hseq, rfl⟩ | ⟨hseq, rfl⟩)
  · rw [exec_lastTick rfl hf hw hin hseq rfl, thermoElapsed_eq (n := window) (by exact husec) le_rfl,
      if_pos (c := s.seq = .thWait) hseq]
    rfl
  · rw [exec_lastTick rfl hf hw hin hseq rfl, thermoElapsed_eq (by exact husec) (period_le _),
      if_neg (c := s.seq = .thWait) (by simp [hseq])]
    rfl

/-! ### The pulses of a window (R173, R182) -/

/-- THERMO's pulse is `pulse(PERC)`, and ends an iteration of one period (R173). -/
theorem State.plansPulse_thermo (s : State) : s.PlansPulse 3 s.perc.toNat (thermoElapsed (period s.freqHz)) := by
  intro seq line lvalid setDone pins ticks trace actions inputs
  simp only [List.forall_mem_cons]
  exact ⟨rfl, rfl, rfl, rfl, nofun⟩

/-- Awake and below 100 an iteration is a pulse (R171). -/
theorem branchLabel_of_lt {perc : BitVec 7} (h : perc.toNat < 100) : branchLabel false perc = pulseEntry perc.toNat := by
  have hfull : perc ≠ 100 := by
    rintro rfl
    exact absurd h (by decide)
  have hzero : perc.toNat = 0 ↔ perc = 0 := BitVec.toNat_inj (y := 0#7)
  simp only [branchLabel, pulseEntry_eq, Bool.false_eq_true, hfull, hzero, if_false]

/-- `s` after undisturbed pulses of the window that took `elapsed` microseconds and left these records and observations (R173). -/
def State.pulsed (s : State) (elapsed : Nat) (logs : List TraceRec) (events : List PortEvent) (rest : List Input) : State :=
  { s with
    seq := s.labelAfter (s.usec.toNat + elapsed)
    line := false
    lvalid := true
    setDone := true
    pins := pinPut s.lPin.toNat false s.pins
    usec := BitVec.ofNat 21 (s.usec.toNat + elapsed)
    ticks := s.ticks + elapsed
    trace := s.trace ++ logs
    actions := s.actions ++ events
    inputs := rest }

/-- While there is room in the window, USEC counts what the pulses took. -/
theorem State.pulsed_usec {s : State} {e : Nat} (hroom : s.usec.toNat + e < window) (logs : List TraceRec)
    (events : List PortEvent) (rest : List Input) : (s.pulsed e logs events rest).usec.toNat = s.usec.toNat + e := by
  unfold window at hroom
  rw [State.pulsed, BitVec.toNat_ofNat]
  omega

/-- Pulses after pulses, while there is room in the window. -/
theorem State.pulsed_pulsed {s : State} {e e' : Nat} (hroom : s.usec.toNat + e < window) (logs logs' : List TraceRec)
    (events events' : List PortEvent) (rest rest' : List Input) :
    (s.pulsed e logs events rest).pulsed e' logs' events' rest' =
      s.pulsed (e + e') (logs ++ logs') (events ++ events') rest' := by
  rw [State.pulsed, State.pulsed_usec hroom]
  simp only [State.pulsed, pinPut_pinPut, Nat.add_assoc, List.append_assoc]
  rfl

theorem flatten_replicate_succ {α : Type} (n : Nat) (xs : List α) :
    (List.replicate (n + 1) xs).flatten = (List.replicate n xs).flatten ++ xs := by
  rw [List.replicate_succ', List.flatten_append, List.flatten_singleton]

section window
variable {s : State} {rest : List Input}

/-- From the first label of an awake iteration below 100 one pulse leads to its end (R173). -/
theorem State.Inv.leads_thermoPulse (h : s.Inv) (hat : s.atLabel 3 (branchLabel false s.perc)) (hperc : s.perc.toNat < 100)
    (husec : s.usec.toNat < Machine.window) (hin : s.inputs = pulseInputs s.epoch s.perc.toNat s.freqHz ++ rest) :
    s.Leads (pulseInputs s.epoch s.perc.toNat s.freqHz).length
      (s.pulsed (period s.freqHz) (s.pulseLogs s.perc.toNat) (pulseEvents s.lPin s.perc.toNat s.freqHz) rest) := by
  rw [branchLabel_of_lt hperc] at hat
  obtain ⟨before, seq, hpulse⟩ := h.leads_pulse hat hperc.le s.plansPulse_thermo hin
  refine hpulse.of_eq rfl ?_
  rw [thermoElapsed_eq (by exact husec) (period_le _)]
  rfl

/-- So do the pulses of a window, as long as the last of them finds room in it (R175). -/
theorem State.Inv.leads_thermoPulses (h : s.Inv) (hat : s.atLabel 3 (branchLabel false s.perc)) (hsleep : s.sleep = false)
    (hperc : s.perc.toNat < 100) (n : Nat) (hroom : s.usec.toNat + n * period s.freqHz < Machine.window)
    (hin : s.inputs = (List.replicate (n + 1) (pulseInputs s.epoch s.perc.toNat s.freqHz)).flatten ++ rest) :
    s.Leads (List.replicate (n + 1) (pulseInputs s.epoch s.perc.toNat s.freqHz)).flatten.length
      (s.pulsed ((n + 1) * period s.freqHz) (List.replicate (n + 1) (s.pulseLogs s.perc.toNat)).flatten
        (List.replicate (n + 1) (pulseEvents s.lPin s.perc.toNat s.freqHz)).flatten rest) := by
  induction n generalizing rest with
  | zero =>
    simp only [Nat.zero_add, Nat.one_mul, List.replicate_one, List.flatten_singleton] at hin ⊢
    exact h.leads_thermoPulse hat hperc (by omega) hin
  | succ n ih =>
    rw [flatten_replicate_succ, List.append_assoc] at hin
    have hfirst := ih (by rw [Nat.succ_mul] at hroom; omega) hin
    obtain ⟨hb, hop, -, hf, hstop⟩ := hat
    have hlabel : s.labelAfter (s.usec.toNat + (n + 1) * period s.freqHz) = branchLabel false s.perc := by
      rw [State.labelAfter, if_neg hroom.not_ge, hsleep]
    have hlast := hfirst.inv.leads_thermoPulse ⟨hb, hop, hlabel, hf, hstop⟩ hperc
      (by rw [State.pulsed_usec hroom]; exact hroom) rfl
    refine (hfirst.trans hlast).of_eq ?_ ?_
    · rw [flatten_replicate_succ (n + 1), List.length_append]
      rfl
    · rw [State.pulsed_pulsed hroom, flatten_replicate_succ (n + 1), flatten_replicate_succ (n + 1), Nat.succ_mul (n + 1)]
      rfl

end window

/-- The pulses of a window are the least number that fills it (R182). -/
theorem pulses_fill_window {p : Nat} (hp : 0 < p) :
    ∃ n, (1000000 + p - 1) / p = n + 1 ∧ n * p < 1000000 ∧ 1000000 ≤ (n + 1) * p := by
  have hdiv := Nat.div_add_mod (1000000 + p - 1) p
  have hmod := Nat.mod_lt (1000000 + p - 1) hp
  have hpos : 0 < (1000000 + p - 1) / p := Nat.div_pos (by omega) hp
  obtain ⟨n, hn⟩ : ∃ n, (1000000 + p - 1) / p = n + 1 := ⟨_, (Nat.succ_pred_eq_of_pos hpos).symm⟩
  rw [hn, Nat.mul_comm, Nat.succ_mul] at hdiv
  refine ⟨n, hn, by omega, by rw [Nat.succ_mul]; omega⟩

/-- Settles O54: from USEC 0 all pulses but the last leave room in the window, and the last fills it. -/
theorem thermoWindowHasNPulses : Obligations.ThermoWindowHasNPulses := by
  intro s rest n h hop hsleep hperc husec hat hn hin
  obtain ⟨hb, -⟩ := id hat
  obtain ⟨-, hfreq, -⟩ := h.operands hb
  obtain ⟨hf1, hf50⟩ := hfreq (.inr (.inl hop))
  have hperiod : 0 < period s.freqHz := Nat.mul_pos (by decide) (Nat.div_pos (by unfold State.freqHz; omega) hf1)
  have hzero : s.usec.toNat = 0 := by rw [husec]; rfl
  obtain ⟨k, hk, hroom, hfull⟩ := pulses_fill_window hperiod
  obtain rfl : n = k + 1 := hn.trans hk
  have hpulses := h.leads_thermoPulses hat hsleep hperc k (by rw [hzero, Nat.zero_add]; exact hroom) hin
  refine (hpulses.of_eq rfl ?_).steps
  rw [State.pulsed, hzero, Nat.zero_add, State.labelAfter, if_pos (by exact hfull)]
  rfl

end Sys2Proof.Machine
end

section
/-! THERMO asleep (O56): the level of its `Set` is 0, and only the evaluation of a reading of at least `1000*T` wakes it. Every other
stage leaves SLEEP alone, whatever the command. -/

namespace Sys2Proof.Machine

/-! ### No line is driven high -/

/-- Asleep, the action a running command has in flight is no `Set` to 1: the pulse labels are awake's, and `ensure` asks for 0
(R172 to R174). -/
theorem State.Inv.inFlight_ne_setHigh {s : State} (h : s.Inv) (hs : s.sleep = true) (p : BitVec 6) :
    s.inFlight ≠ some (.setPin p true) := by
  intro hf
  have hb := h.busy_of_inFlight hf
  obtain ⟨-, -, -, -, hthermo⟩ := h.legal
  obtain ⟨hop, -⟩ := hthermo hs
  have haction : s.actionAt s.seq = .setPin p true := Option.some.inj ((h.awaiting hf nofun).inFlight.symm.trans hf)
  have hlabel := (mem_labelsOf_iff _ _).mp (h.label hb)
  obtain ⟨-, hpulses, -⟩ := h.branch hb hop
  generalize s.seq = l at haction hlabel hpulses
  cases l <;> simp [State.actionAt] at haction
  case puSetH => simp [hs] at hpulses
  case fxSet => simp [hop, usersOf] at hlabel
  case hySet => simp [hop, usersOf] at hlabel
  case thSet => simp [State.ensureLevel, hs] at haction

/-! ### What leaves SLEEP alone -/

@[simp] theorem State.raiseFault_sleep (code : FaultCode) (before s : State) : (s.raiseFault code before).sleep = s.sleep :=
  State.terminate_sleep _ _ _

@[simp] theorem Progress.settle_sleep (before : State) (p : Progress) : (p.settle before).sleep = p.reached.sleep := by
  cases p with
  | goto l u => rfl
  | finished u => exact State.terminate_sleep .done before u

theorem FramedNext.settle_sleep {next : State → Progress} (h : FramedNext next) (before u : State) :
    ((next u).settle before).sleep = u.sleep := by
  obtain ⟨usec, trace, hs⟩ := h u
  rw [Progress.settle_sleep, hs]

theorem onGpio_sleep {evaluates : Prop} {stage : Stage} (h : stage.Framed evaluates) (ok level : Bool) (s : State) :
    (stage.onGpio ok level s).sleep = s.sleep := by
  obtain ⟨next, rfl, -, hs⟩ | ⟨next, rfl, -, hs⟩ | ⟨p, next, rfl, -, hs⟩ | ⟨p, next, rfl, -, hs⟩ |
    ⟨p, v, next, rfl, -, hs⟩ | ⟨p, v, next, rfl, -, hs⟩ | ⟨p, next, rfl, -, hs⟩ | ⟨p, next, rfl, -, hs⟩ | ⟨hs, -⟩ :=
    onGpio_cases ok level s stage <;> rw [hs]
  · exact FramedNext.settle_sleep h s s.opened
  · exact State.raiseFault_sleep _ s _
  · exact FramedNext.settle_sleep h s (s.configured p)
  · exact State.raiseFault_sleep _ s _
  · rw [State.driven_eq_setLogs]
    exact FramedNext.settle_sleep h s _
  · exact State.raiseFault_sleep _ s _
  · exact (h (s.readback p level)).settle_sleep s (s.sampled p (s.readback p level))
  · exact State.raiseFault_sleep _ s _

theorem waitTick_sleep {next : State → Progress} (h : FramedNext next) (n : Nat) (s : State) :
    (s.waitTick n next).sleep = s.sleep := by
  obtain ⟨-, hs⟩ | ⟨-, -, hs⟩ | ⟨-, -, hs⟩ := waitTick_cases n next s <;> rw [hs]
  · exact h.settle_sleep s (s.waited n)
  · rfl
  · rfl

/-! ### What wakes -/

/-- THERMO reads the temperature at its evaluation alone (R175). -/
theorem thermoPlan_readTemp {s : State} {l : Label} {next : Word → State → Progress}
    (h : thermoPlan s l = some (.readTemp next)) : l = .thTread ∧ next = thermoAfterTread := by
  cases l <;> cases h
  exact ⟨rfl, rfl⟩

/-- Asleep, an evaluation stays asleep or wakes at a reading of at least `1000*T`; PERC stays (R176). -/
theorem evaluate_of_asleep {t : Word} {u : State} (hs : u.sleep = true) :
    (evaluate t u).2 = u ∨ u.high ≤ t.toInt ∧ (evaluate t u).2 = { u with sleep := false } := by
  obtain ⟨-, he⟩ | ⟨-, -, hawake, -⟩ | ⟨-, hhigh, -, he⟩ | ⟨-, -, hawake, -⟩ | ⟨-, -, -, he⟩ := evaluate_cases t u
  · exact .inl (by rw [he])
  · cases hs.symm.trans hawake
  · exact .inr ⟨hhigh, by rw [he]⟩
  · cases hs.symm.trans hawake
  · exact .inl (by rw [he])

/-- The computation after the reading keeps the SLEEP and the PERC of the evaluation (R180). -/
theorem thermoAfterTread_settle (t : Word) (before u : State) :
    ((thermoAfterTread t u).settle before).sleep = (evaluate t u).2.sleep ∧
      ((thermoAfterTread t u).settle before).perc = (evaluate t u).2.perc := by
  obtain ⟨d, perc, sleep, he, -⟩ := evaluate_eq t u
  rw [thermoAfterTread_of_evaluate he, he]
  exact ⟨rfl, rfl⟩

/-- A sensor's answer wakes a sleeping THERMO only at its evaluation. -/
theorem onSensor_of_asleep {s : State} {stage : Stage} (hs : s.sleep = true) (hstage : thermoPlan s s.seq = some stage)
    (ok : Bool) (t : Word) : (stage.onSensor ok t s).sleep = true ∨
      s.seq = .thTread ∧ s.high ≤ t.toInt ∧ (stage.onSensor ok t s).perc = s.perc := by
  have hframed := thermoPlan_framed hstage
  obtain ⟨next, rfl, -, hstep⟩ | ⟨next, rfl, -, hstep⟩ | ⟨next, rfl, hstep⟩ | ⟨hstep, -⟩ := onSensor_cases ok t s stage <;>
    rw [hstep]
  · exact .inl ((FramedNext.settle_sleep hframed s s.bound).trans hs)
  · exact .inl ((State.raiseFault_sleep _ s _).trans hs)
  · obtain ⟨hseq, rfl⟩ := thermoPlan_readTemp hstage
    obtain ⟨hsleep, hperc⟩ := thermoAfterTread_settle t s (s.temperature t)
    rw [hsleep, hperc]
    obtain hsame | ⟨hhigh, hwake⟩ := evaluate_of_asleep (t := t) (u := s.temperature t) hs
    · rw [hsame]
      exact .inl hs
    · rw [hwake]
      exact .inr ⟨hseq, hhigh, rfl⟩
  · exact .inl hs

/-- While THERMO is BUSY and asleep, a step other than reset wakes it only by an evaluation's reading, and PERC stays then
(R176). -/
theorem State.Moves.of_asleep {s t : State} {x : Option Input} (h : s.Moves x t) (hb : s.state = .busy) (hop : s.lOp = 3)
    (hs : s.sleep = true) (hx : x ≠ some .reset) : t.sleep = true ∨
      s.seq = .thTread ∧ ∃ ok r, x = some (.sensor s.epoch ok r) ∧ s.high ≤ r.toInt ∧ t.perc = s.perc := by
  cases h with
  | reset => exact absurd rfl hx
  | start a w entry hnot => exact absurd hb hnot
  | refuse a w hnot => exact absurd hb hnot
  | stray | window => exact .inl hs
  | launch => exact .inl (by cases s.actionAt s.seq <;> exact hs)
  | stop => exact .inl ((State.terminate_sleep _ _ _).trans hs)
  | close ok level e => exact .inl (by simpa [State.closed_eq] using hs)
  | gpio ok level stage _ _ hstage => exact .inl ((onGpio_sleep (planOf_framed hstage) ok level s).trans hs)
  | tick n next _ _ hstage => exact .inl ((waitTick_sleep (planOf_framed hstage) n s).trans hs)
  | sensor ok r stage _ _ hstage =>
    rw [hop] at hstage
    exact (onSensor_of_asleep hs hstage ok r).imp_right fun ⟨hseq, hhigh, hperc⟩ => ⟨hseq, ok, r, rfl, hhigh, hperc⟩

/-- Settles O56: what a step observes is the action in flight, and only an evaluation's reading wakes. -/
theorem sleepLatchesUntilTheTarget : Obligations.SleepLatchesUntilTheTarget := by
  intro s t h hb hs hreset hstep
  have hmoves := step_moves h hstep
  refine ⟨?_, ?_⟩
  · obtain ⟨hactions, -⟩ | ⟨a, hf, hperf⟩ := hmoves.performs hreset
    · exact ⟨[], hactions.trans (List.append_nil _).symm, by simp⟩
    · obtain ⟨new, hnew, hall⟩ := hperf.actions
      exact ⟨new, hnew, fun p r hmem => h.inFlight_ne_setHigh hs p (hf.trans (congrArg some (hall _ hmem).symm))⟩
  · obtain ⟨-, -, -, -, hthermo⟩ := h.legal
    obtain ⟨hop, -⟩ := hthermo hs
    exact hmoves.of_asleep hb hop hs hreset

end Sys2Proof.Machine
end

section
/-! Failed port actions (O28). A failure leaves the state `State.failed` says and raises the fault of its action; only an action
on a pin touches LINE, LVALID or the pin space, and such an action is in flight only with the handle held. -/

namespace Sys2Proof.Machine

/-! ### What a failure does -/

/-- The state in which the failure of `a` raises its fault (R200). -/
def State.failed (s : State) : Action → State
  | .cfgPin p => s.configFailed p
  | .setPin p v => s.driveFailed p v
  | .getPin p => s.sampleFailed p
  | a => s.land.record a .fail

@[simp] theorem State.failed_held (s : State) (a : Action) : (s.failed a).held = s.held := by cases a <;> rfl

theorem onGpio_fail {stage : Stage} (h : stage.action.port = .gpio) (level : Bool) (s : State) :
    stage.onGpio false level s = (s.failed stage.action).raiseFault (faultOf stage.action) s := by
  cases stage with
  | openCtl next | cfgPin p next | setPin p v next | getPin p next => rfl
  | bindSensor next | readTemp next | wait n next => cases h

theorem Stage.eq_bindSensor_of_action {stage : Stage} (h : stage.action = .bindSensor) : ∃ next, stage = .bindSensor next := by
  cases stage <;> cases h
  exact ⟨_, rfl⟩

theorem onSensor_bindSensor_fail (next : State → Progress) (t : Word) (s : State) :
    (Stage.bindSensor next).onSensor false t s = (s.failed .bindSensor).raiseFault .sensor s := rfl

/-- A fault with the handle held issues its `Close()`; LINE and LVALID show as before until its answer (R210, log entry 11). -/
theorem State.raiseFault_failed_of_held {s : State} (hheld : s.held = true) (a : Action) :
    (s.failed a).raiseFault (faultOf a) s = { s with
      inFlight := some .closeCtl
      ending := some ⟨.fault (faultOf a), (s.failed a).line, (s.failed a).lvalid⟩
      pins := (s.failed a).pins
      actions := s.actions ++ [⟨a, .fail⟩] } := by
  rw [State.raiseFault, State.terminate_of_held ((s.failed_held a).trans hheld)]
  cases a <;> rfl

/-- A fault without the handle makes the last writes at once; an action on no pin leaves what is known of the lines (R210). -/
theorem State.raiseFault_failed_of_not_held {s : State} (hheld : s.held = false) {a : Action} (hpin : a.pin? = none) :
    (s.failed a).raiseFault (faultOf a) s = { s with
      fcode := faultOf a, state := .fault, seq := .idle, stopReq := false, wrem := 0, inFlight := none
      actions := s.actions ++ [⟨a, .fail⟩] } := by
  rw [State.raiseFault, State.terminate_of_not_held ((s.failed_held a).trans hheld)]
  cases a with
  | cfgPin p | setPin p v | getPin p => cases hpin
  | openCtl | closeCtl | bindSensor | readTemp | wait n => rfl

/-! ### Who holds the handle -/

/-- The labels without the handle name actions on no pin (R24, R37). -/
theorem pin?_actionAt_of_not_held {s : State} {l : Label} (h : l ∈ [Label.pOpen, .rtBind, .rtTread]) :
    (s.actionAt l).pin? = none := by
  simp only [List.mem_cons, List.not_mem_nil, or_false] at h
  obtain rfl | rfl | rfl := h <;> rfl

/-- Without the handle the action in flight is on no pin (R24, R102). -/
theorem State.Inv.pin?_of_not_held {s : State} (h : s.Inv) {a : Action} (hf : s.inFlight = some a) (ha : a ≠ .closeCtl)
    (hheld : s.held = false) : a.pin? = none := by
  obtain rfl : s.actionAt s.seq = a := Option.some.inj ((h.awaiting hf ha).inFlight.symm.trans hf)
  rw [h.held_eq (h.busy_of_inFlight hf), decide_eq_false_iff_not, not_not] at hheld
  exact pin?_actionAt_of_not_held hheld

/-! ### The step -/

section failures
variable {s : State} {rest : List Input}

theorem State.Inv.step_gpio_fail (h : s.Inv) {a : Action} (hf : s.inFlight = some a) (ha : a ≠ .closeCtl)
    (hport : a.port = .gpio) {level : Bool} (hin : s.inputs = .gpio s.epoch false level :: rest) :
    step s = .next ((State.failed { s with inputs := rest } a).raiseFault (faultOf a) { s with inputs := rest }) := by
  obtain ⟨stage, -, rfl, hstep⟩ := h.step_gpio hf ha hin
  rw [hstep, onGpio_fail hport]

theorem State.Inv.step_bindSensor_fail (h : s.Inv) (hf : s.inFlight = some .bindSensor) {t : Word}
    (hin : s.inputs = .sensor s.epoch false t :: rest) :
    step s = .next ((State.failed { s with inputs := rest } .bindSensor).raiseFault .sensor { s with inputs := rest }) := by
  obtain ⟨stage, hstage, haction⟩ := h.exists_stage hf nofun
  obtain ⟨next, rfl⟩ := Stage.eq_bindSensor_of_action haction
  rw [h.step_eq_runCommand hf nofun (by simp [hin]) (by simp [hin]), runCommand_sensor hf nofun hin hstage,
    onSensor_bindSensor_fail]

end failures

/-- Settles O28: the step raises the fault of the action in flight, by way of `Close()` if the handle is held. -/
theorem failedActionsRaiseTheirFault : Obligations.FailedActionsRaiseTheirFault := by
  intro s a x rest h hf hin hfail
  have hclose : a ≠ .closeCtl := by
    obtain ⟨rfl, -⟩ | ⟨rfl | ⟨p, rfl⟩ | ⟨p, v, rfl⟩ | ⟨p, rfl⟩, -⟩ := hfail <;> nofun
  have hstep : step s =
      .next ((State.failed { s with inputs := rest } a).raiseFault (faultOf a) { s with inputs := rest }) := by
    obtain ⟨rfl, t, rfl⟩ | ⟨hgpio, l, rfl⟩ := hfail
    · exact h.step_bindSensor_fail hf hin
    · have hport : a.port = .gpio := by obtain rfl | ⟨p, rfl⟩ | ⟨p, v, rfl⟩ | ⟨p, rfl⟩ := hgpio <;> rfl
      exact h.step_gpio_fail hf hclose hport hin
  refine ⟨fun hheld => ?_, fun hheld => ?_⟩
  · rw [hstep, State.raiseFault_failed_of_not_held (by exact hheld) (h.pin?_of_not_held hf hclose hheld)]
  · rw [hstep, State.raiseFault_failed_of_held (by exact hheld)]
    cases a <;> rfl

end Sys2Proof.Machine
end

section
/-! Reset, whatever the state (O8): what it observes is the end of the action in flight, and every other field is a reset value
or lies outside the block. -/

namespace Sys2Proof.Machine

/-- With nothing in flight reset has nothing to end, so it observes no action, no `Close()` among them (R240). -/
theorem State.cutShort_of_inFlight_none {s : State} (hf : s.inFlight = none) : s.cutShort = [] := by
  rw [State.cutShort, hf]

/-- The action that reset ends gets no answer of its agent: a `Wait` is aborted, any other abandoned (R240). -/
theorem State.response_of_mem_cutShort {s : State} {e : PortEvent} (he : e ∈ s.cutShort) :
    e.response = .aborted ∨ e.response = .abandoned := by
  unfold State.cutShort at he
  split at he
  case h_1 => cases he
  case h_2 n _ =>
    obtain rfl := List.mem_singleton.mp he
    exact .inl rfl
  case h_3 a _ _ =>
    obtain rfl := List.mem_singleton.mp he
    exact .inr rfl

/-- Reset depends on the inputs only in that those still to come stay (R240, log entry 12). -/
theorem State.resetNow_popInput {s : State} {x : Input} {rest : List Input} (hin : s.inputs = x :: rest) :
    s.popInput.resetNow = { State.reset with
      epoch := s.epoch + 1, foreignDrive := s.foreignDrive, ticks := s.ticks, trace := s.trace
      actions := s.actions ++ s.cutShort, inputs := rest } := by
  have htail : s.popInput.inputs = rest := congrArg List.tail hin
  rw [State.resetNow, htail]
  rfl

/-- Settles O8: the step is `resetNow`, and what joins the observation is `cutShort`. -/
theorem resetOverridesEverything : Obligations.ResetOverridesEverything := by
  intro s rest hin
  refine ⟨s.popInput.resetNow, s.cutShort, step_reset hin, State.resetNow_popInput hin, State.cutShort_of_inFlight_none, ?_⟩
  exact fun e he => ⟨(State.action_of_mem_cutShort he).symm, State.response_of_mem_cutShort he⟩

end Sys2Proof.Machine
end
